-- ==== Sys2Proof/Word.lean ====
section
/-! DEFINITION. The word types of the UWC codec block (spec/00_scope.md R5, R6, R7): widths only. -/

namespace Sys2Proof

/-- A host-visible register, `REG_W` = 64 bits (R6, R30). -/
abbrev Word := BitVec 64

/-- One cell of the `IN` or the `OUT` space: 16 bits, the only unit of every access (R60, R61, R67). -/
abbrev Cell := BitVec 16

/-- One symbol: an alphabet byte, also the width of a `TOK` cell (R35, R36). -/
abbrev Symbol := BitVec 8

/-- A nibble, `NIB_W` = 4 bits (R5). -/
abbrev Nibble := BitVec 4

/-- The 32-bit wrapping values of the padding generator (R7, R204). -/
abbrev U32 := BitVec 32

end Sys2Proof
end

