-- ==== Sys2Proof/Config.lean ====
section
/-! DEFINITION. What an implementation of UWC fixes (spec/00_scope.md R5, R6) and the free values: the parameter
`NEXT_FN` and everything the spec says "returns any value". A free value is an `opaque` constant with no body:
nothing can be proved of the value it takes. -/

namespace Sys2Proof.Config

/-! ### The constants the source fixes (R5) -/

/-- `TOK_CAP`: cells of the token scratch array (R5, R35). -/
def tokCap : Nat := 16

/-- `TOKEN_SIZE_PER_WORD` (R5). -/
def tokenSizePerWord : Nat := 32

/-- `MAX_TOKEN_WINDOW_SIZE` (R5). -/
def maxTokenWindowSize : Nat := 512 * 1024

/-- `MAX_BUFFER_SIZE` = 16 777 216, the largest input length of ENCODE and HASHENC (R5, R29). -/
def maxBufferSize : Nat := tokenSizePerWord * maxTokenWindowSize

/-- `MAX_DECODE_SIZE` = 134 217 728, the largest input length of DECODE (R5, R29). -/
def maxDecodeSize : Nat := 8 * maxBufferSize

/-- `C1`, the multiplier of the seed mix (R5, R203). -/
def c1 : U32 := 1160377727#32

/-- `C2`, the multiplier of the odd-branch update (R5, R203). -/
def c2 : U32 := 1524124499#32

/-- `ST_SUCCESS` (R5, R245). -/
def stSuccess : Word := 1#64

/-- `ST_EMPTY` (R5, R245). -/
def stEmpty : Word := 0#64

/-- `ST_TOO_LARGE` = -1 (R5, R24, R245). -/
def stTooLarge : Word := 0xFFFFFFFFFFFFFFFF#64

/-- `ST_CANNOT_DECODE` = -2 (R5, R24, R245). -/
def stCannotDecode : Word := 0xFFFFFFFFFFFFFFFE#64

/-! ### The parameters this spec chooses a value for (R6) -/

/-- `ST_LENGTH_OVERFLOW` = -3 (R6, R245). -/
def stLengthOverflow : Word := 0xFFFFFFFFFFFFFFFD#64

/-- `ST_BAD_COMMAND` = -4 (R6, R245). -/
def stBadCommand : Word := 0xFFFFFFFFFFFFFFFC#64

/-- `MAX_SAFE_LEN` = 2^53 - 1 (R6, R131). -/
def maxSafeLen : Nat := 2 ^ 53 - 1

/-- `BUF_INIT_CAP` = 16 cells (R6, R41, R130). -/
def bufInitCap : Nat := 16

/-- `BUF_ALIGN` = 1: a grown capacity is not rounded (R6, R67, R131). -/
def bufAlign : Nat := 1

/-- `POOL_ENABLE` = 1: the capacity survives from command to command (R6, R40, R130). -/
def poolEnable : Bool := true

/-- The two orders a platform may store the bytes of a cell in (R66). -/
inductive ByteOrder where
  | littleEndian
  | bigEndian
deriving DecidableEq, Repr

/-- `CELL_BYTE_ORDER`, little-endian by default (R6, R66). No rule of UWC depends on it. -/
def cellByteOrder : ByteOrder := .littleEndian

/-! ### Free values -/

/-- `NEXT_FN`: any total function from u32 to u32 (R202). -/
opaque nextFn : U32 → U32

/-- What a HOST read of a register returns where the spec says "any value" (R234, R236), one value a draw. -/
opaque freeWord : Nat → Word

/-- What a HOST read of a cell returns where the spec says "any value" (R64, R236, R285), one value a draw. -/
opaque freeCell : Nat → Cell

/-- What a `TOK` cell holds after a transform: unspecified (R35, R287), one value a draw. -/
opaque freeSymbol : Nat → Symbol

/-- What an `IN` cell holds that no HOST write of this run has stored: "whatever the HOST holds" (R41). -/
opaque hostCell : Nat → Cell

/-- What a stale `OUT` cell holds (R40, R61): by draw and by index. -/
opaque staleCell : Nat → Nat → Cell

end Sys2Proof.Config
end

