-- ==== Sys2Proof/Syntax.lean ====
section
/-! DEFINITION. The command set of UWC: one constructor for each row of spec/opcode_table.json (R95). A command
word has no operand field: the one operand of a command stands in `ARG0` (R90, R96). -/

namespace Sys2Proof

/-- A command of UWC (spec/30_encoding.md R95). -/
inductive Instr where
  /-- ENCODE, `OP` = 0x1 (R165, R166). -/
  | encode
  /-- DECODE, `OP` = 0x2 (R180 to R186). -/
  | decode
  /-- HASHENC, `OP` = 0x3 (R215, R216). -/
  | hashenc
  /-- NEXT, `OP` = 0x4 (R200). -/
  | next
  /-- BUFNEW, `OP` = 0x5 (R130). -/
  | bufnew
  /-- RESERVE, `OP` = 0x6 (R131). -/
  | reserve
  /-- APPEND, `OP` = 0x7 (R132). -/
  | append
  /-- APPENDSPAN, `OP` = 0x8 (R133). -/
  | appendspan
  /-- LENGTH, `OP` = 0x9 (R134). -/
  | length
  /-- LOOKUP, `OP` = 0xA (R152). -/
  | lookup
  /-- TOKEN, `OP` = 0xB (R151). -/
  | token
  /-- RELEASE, `OP` = 0xF (R232). `CMD[63:4]` is not examined; the constructor carries those bits. -/
  | release (unexamined : BitVec 60)
deriving DecidableEq, Repr

end Sys2Proof
end

