-- ==== Sys2Proof/Machine/State.lean ====
section
/-! DEFINITION. The state of one ENGINE (spec/10_state.md R20 to R41), of the HOST's input space `IN`, and the
model's own schedule of HOST actions; the state after reset; the reasons a step can stop. -/

namespace Sys2Proof.Machine

/-- A cell space (`IN` or `OUT`, R60, R61): the stored cells as pairs of index and 16-bit cell, indices strictly
rising. A cell that is not listed has no stored value. -/
abbrev Memory := List (Nat × Cell)

/-- The canonical form of a cell space: indices strictly rising. -/
abbrev Memory.wf (m : Memory) : Prop := m.Pairwise fun x y => x.1 < y.1

/-- `STATE` (R21). The code 3 never occurs. -/
inductive EngineState where
  /-- 0: no command running, no result held. -/
  | idle
  /-- 1: a command is running. -/
  | busy
  /-- 2: a command has completed; its results are the HOST's until RELEASE. -/
  | done
deriving DecidableEq, Repr

/-- One turn of the schedule: an action of the HOST at the interface (R64, R234, R280), or the ENGINE's turn.
A register or a cell is named by its number (R30, R60). -/
inductive HostEvent where
  /-- `read(reg)`. -/
  | readReg (n : Nat)
  /-- `write(reg, v)`; `CMD` is register 0. -/
  | writeReg (n : Nat) (v : Word)
  /-- The HOST reads `IN[i]`. -/
  | readIn (i : Nat)
  /-- The HOST writes `IN[i]`. -/
  | writeIn (i : Nat) (v : Cell)
  /-- The HOST reads `OUT[i]`. -/
  | readOut (i : Nat)
  /-- The reset input is asserted and released. -/
  | reset
  /-- The HOST does nothing: the ENGINE takes its turn. -/
  | engine
deriving DecidableEq, Repr

/-- The state: host-visible registers (R30), the sequencer's command (R26), the working registers (R26, R31 to
R33), `TOK` (R35), `OUT` and `IN` (R37), and four fields of the model's own: the HOST's schedule, the value its
last read returned, and the counter of free values drawn. The constant registers and `ALPHA` are constants, not
state (R20). `CMD` holds no value between writes (R22). -/
structure State where
  /-- `ARG0`, register 1 (R23). -/
  arg0 : Word
  /-- `STATE`, register 2 (R21). -/
  state : EngineState
  /-- `STATUS`, register 3, two's complement (R24). -/
  status : Word
  /-- `PAYLOAD_LEN`, register 4 (R25). -/
  payloadLen : Word
  /-- `RES0`, register 5 (R27). -/
  res0 : Word
  /-- `LEN`, register 6 `BUF_LEN` (R28). -/
  len : Word
  /-- `CAP`, register 7 `BUF_CAP` (R28). -/
  cap : Word
  /-- `GROW`, register 8 `GROW_COUNT` (R28). -/
  grow : Word
  /-- `TOK[0..15]`, registers 32 to 47 (R35). -/
  tok : Vector Symbol 16
  /-- The command word held in the sequencer from its `CMD` write until completion (R26, R230). -/
  held : Option Word
  /-- `CUR`, the input cursor (R26). -/
  cur : BitVec 32
  /-- `IN_LEN`, the copy of `ARG0` a transform takes (R26). -/
  inLen : Word
  /-- `CH`, the part of the character not yet decomposed (R31). -/
  ch : Cell
  /-- `T`, the current nibble (R31). -/
  t : Nibble
  /-- `K`, the number of symbols in `TOK` (R31). -/
  k : BitVec 5
  /-- `COUNT`, the dots of the current prefix (R32). -/
  count : BitVec 32
  /-- `BI`, the body symbols read so far (R32). -/
  bi : BitVec 32
  /-- `R`, the lookup result, signed (R32). -/
  r : BitVec 6
  /-- `PREV`, the remembered first half (R32). -/
  prev : BitVec 1
  /-- `PREV_VALID`, a first half is pending (R32, R39). -/
  prevValid : Bool
  /-- `J`, the arrival index of the next nibble (R32). -/
  j : BitVec 32
  /-- `ACC`, the character being reassembled (R32). -/
  acc : Cell
  /-- `BNUM`, the running accumulator (R33). -/
  bnum : U32
  /-- `PAD`, the padding count (R33). -/
  pad : BitVec 5
  /-- `TEMP` (R33). -/
  temp : Nibble
  /-- `PI`, the padding loop counter (R33). -/
  pi : BitVec 5
  /-- `OUT`, the output space: the cells appended since the last `buf_new` (R37, R61). -/
  out : Memory
  /-- `IN`, the input space, the HOST's (R37, R60): the cells the HOST has written. -/
  inp : Memory
  /-- The model's own: the HOST's actions still to come, first one first. -/
  inputs : List HostEvent
  /-- The model's own: what the last HOST read returned. -/
  hostData : Word
  /-- The model's own: how many free values have been drawn. -/
  fresh : Nat
deriving DecidableEq, Repr

/-- UWC has no fault: every failure of a command is a completion with a negative status (R245, R251), and no
command can be stuck (R238). -/
inductive Fault where
deriving DecidableEq, Repr

/-- Why a step is refused. -/
inductive Refusal where
  /-- Raised by an arm of `exec` whose instruction has no meaning yet; safe. No arm raises it. -/
  | notModelled (mnemonic : String)
  /-- Raised by a HOST write to a cell of `IN[0 .. IN_LEN-1]` while a transform is running: "a model should refuse
  such a run" (R236, R283; 93_implementation_defined.md V8); safe. No command raises it. -/
  | inputChangedWhileBusy
deriving DecidableEq, Repr

/-- The machine right after reset (R41, R280). The spec leaves the working registers and `TOK` unspecified at
reset: each is 0 here (notes/assumptions/1.md). No `OUT` cell holds a stored value, and `IN` holds whatever the
HOST holds. -/
def State.reset : State where
  arg0 := 0
  state := .idle
  status := 0
  payloadLen := 0
  res0 := 0
  len := 0
  cap := BitVec.ofNat 64 Config.bufInitCap
  grow := 0
  tok := Vector.replicate 16 0
  held := none
  cur := 0
  inLen := 0
  ch := 0
  t := 0
  k := 0
  count := 0
  bi := 0
  r := 0
  prev := 0
  prevValid := false
  j := 0
  acc := 0
  bnum := 0
  pad := 0
  temp := 0
  pi := 0
  out := []
  inp := []
  inputs := []
  hostData := 0
  fresh := 0

end Sys2Proof.Machine
end

