-- ==== Sys2Proof/Machine/Operands.lean ====
section
/-! DEFINITION. Operand assembly from `ARG0` (spec/30_encoding.md R96), the alphabet table (R97) and the register
and cell operands of the addressing modes of R76. -/

namespace Sys2Proof.Machine

/-! ### The alphabet -/

/-- The alphabet table (R97): a ROM of sixteen bytes (R36). -/
def alphabet : Vector Symbol 16 :=
  #v[0x20#8, 0x2E#8, 0x5F#8, 0x3F#8, 0x3C#8, 0x3E#8, 0x28#8, 0x29#8,
     0x7B#8, 0x7D#8, 0x22#8, 0x27#8, 0x21#8, 0x2C#8, 0x20#8, 0x2E#8]

/-- `ALPHA[t]` (R65, R97). -/
def alpha (t : Nibble) : Symbol := alphabet[t.toNat]

/-- `zext_8`: a symbol as a cell (R61, R76). -/
def symbolCell (s : Symbol) : Cell := s.setWidth 16

/-- A dot, 0x002E (R12, R182). -/
def dotCell : Cell := 0x002E#16

/-- A space, 0x0020 (R12, R166). -/
def spaceCell : Cell := 0x0020#16

/-! ### `ARG0` (R96): `none` where the value is outside the command's legal range -/

/-- NEXT: `ARG0[31:0]`, legal when `ARG0[63:32]` = 0 (R200). -/
def seedOperand (a : Word) : Option U32 :=
  if a.extractLsb' 32 32 = 0 then some (a.extractLsb' 0 32) else none

/-- APPEND and LOOKUP: `ARG0[15:0]`, legal when `ARG0[63:16]` = 0 (R132, R152). -/
def cellOperand (a : Word) : Option Cell :=
  if a.extractLsb' 16 48 = 0 then some (a.extractLsb' 0 16) else none

/-- APPENDSPAN: the whole register as a count, legal when at most 16 (R133). -/
def countOperand (a : Word) : Option Nat :=
  if a.toNat ≤ Config.tokCap then some a.toNat else none

/-- TOKEN: `ARG0[3:0]`, legal when `ARG0[63:4]` = 0 (R151). -/
def nibbleOperand (a : Word) : Option Nibble :=
  if a.extractLsb' 4 60 = 0 then some (a.extractLsb' 0 4) else none

/-- RESERVE: the whole register, any value (R131). -/
def reserveOperand (a : Word) : Nat := a.toNat

/-! ### Cells -/

/-- The value stored in a cell of a cell space, if any. -/
def cellAt : Memory → Nat → Option Cell
  | [], _ => none
  | (b, v) :: rest, a => if a = b then some v else cellAt rest a

/-- Stores a cell, keeping indices strictly rising (`MemWrite(space + a, 1, v)`, R8). -/
def putCell : Memory → Nat → Cell → Memory
  | [], a, v => [(a, v)]
  | (b, w) :: rest, a, v =>
    if a < b then (a, v) :: (b, w) :: rest
    else if a = b then (a, v) :: rest
    else (b, w) :: putCell rest a v

/-- `MemRead(IN + i, 1)` (R8, R62): a cell the HOST has not written in this run reads as whatever the HOST holds
there, the free value `Config.hostCell i` (R41; notes/assumptions/3.md). -/
def inCell (s : State) (i : Nat) : Cell := (cellAt s.inp i).getD (Config.hostCell i)

/-- `MemRead(OUT + i, 1)` (R8): a cell not appended since the last `buf_new` is stale and reads as any value
(R40, R61; notes/assumptions/4.md). -/
def outCell (s : State) (i : Nat) : Cell := (cellAt s.out i).getD (Config.staleCell s.fresh i)

/-! ### `TOK` -/

/-- `TOK[i]` for an index in 0..15; no other index is ever formed (R35, R65). -/
def tokAt (s : State) (i : Nat) : Symbol := s.tok.toList.getD i 0

/-- `TOK[i] <- v` for an index in 0..15 (R8, R35). -/
def tokSet (i : Nat) (v : Symbol) (s : State) : State := { s with tok := s.tok.setIfInBounds i v }

/-! ### The bytes of a cell, for a platform with byte-addressed memory -/

/-- The two bytes of a cell, lower address first, in the platform's `CELL_BYTE_ORDER` (R66). -/
def cellBytes (v : Cell) : List (BitVec 8) :=
  match Config.cellByteOrder with
  | .littleEndian => [v.extractLsb' 0 8, v.extractLsb' 8 8]
  | .bigEndian => [v.extractLsb' 8 8, v.extractLsb' 0 8]

/-- The payload byte of a cell of an Encoded or Hashed Stream: its low 8 bits (R61). -/
def payloadByte (v : Cell) : BitVec 8 := v.extractLsb' 0 8

end Sys2Proof.Machine
end

