-- ==== Sys2Proof/Machine/Flags.lean ====
section
/-! DEFINITION. The only one-bit state of UWC: `PREV_VALID` and `PREV` of the decoder (spec/10_state.md R39;
spec/43_canonical_decode.md R184). UWC has no condition codes and no arithmetic flags. -/

namespace Sys2Proof.Machine

/-- `PREV_VALID <- 0`: at the start of a token body, after a second half, after a flush (R39, R184). -/
def clearHalf (s : State) : State := { s with prevValid := false }

/-- `PREV <- R; PREV_VALID <- 1`: a first half is remembered (R184). `R` is 0 or 1 here. -/
def rememberHalf (r : BitVec 6) (s : State) : State := { s with prev := r.setWidth 1, prevValid := true }

/-- `PREV + 14 * R`, the nibble of an escape pair (R104, R184), on 4 bits. -/
def pairNibble (prev : BitVec 1) (r : BitVec 6) : Nibble := prev.setWidth 4 + 14#4 * r.setWidth 4

/-- The nibble a flushed half stands for: `PREV` itself, 0 or 1 (R184). -/
def flushNibble (prev : BitVec 1) : Nibble := prev.setWidth 4

end Sys2Proof.Machine
end

