-- ==== Sys2Proof/Machine/Ops.lean ====
section
/-! DEFINITION. The shared operations: completion and failure entry (spec/60_exceptions.md R250, R251), RELEASE's
return (R232), the buffer functions (spec/40_buffer.md), the symbol units (spec/41_symbol_units.md), the padding
generator's call (R200) and the frame of a transform (R42, R165, R180, R215). -/

namespace Sys2Proof.Machine

/-! ### Completing a command -/

/-- The conditions a command can raise (R9, R245). -/
inductive Raise where
  | tooLarge
  | cannotDecode
  | lengthOverflow
  | badCommand
deriving DecidableEq, Repr

/-- `code(X)`, sign-extended to 64 bits (R245, R251). -/
def raiseCode : Raise → Word
  | .tooLarge => Config.stTooLarge
  | .cannotDecode => Config.stCannotDecode
  | .lengthOverflow => Config.stLengthOverflow
  | .badCommand => Config.stBadCommand

/-- `finish(s)` (R250): the sequencer lets go of the command and the result is the HOST's. -/
def finish (st : Word) (s : State) : State :=
  { s with
    status := st
    payloadLen := if st = Config.stSuccess then s.len else 0
    state := .done
    held := none }

/-- Failure entry (R251), the one exception of UWC: everything but `STATUS`, `PAYLOAD_LEN`, `RES0` and `STATE`
keeps what the command had made of it. -/
def raiseEntry (x : Raise) (s : State) : State :=
  { s with
    status := raiseCode x
    payloadLen := 0
    res0 := 0
    state := .done
    held := none }

/-- RELEASE, the only return (R232, R253): DONE to IDLE, and nothing else. -/
def releaseReturn (s : State) : State :=
  { s with state := if s.state = .done then .idle else s.state }

/-- How far a command's body has come: running on, or stopped by a `raise` (R9). -/
inductive Flow where
  | go (s : State)
  | raise (x : Raise) (s : State)
deriving DecidableEq, Repr

/-- The next part of a body runs only where nothing was raised (R9, R237). -/
def Flow.bind (f : Flow) (g : State → Flow) : Flow :=
  match f with
  | .go s => g s
  | .raise x s => .raise x s

/-- The end of a unit command: `finish(1)`, or the failure entry of what was raised (R250, R251). -/
def complete (f : Flow) : Host.Outcome State Fault Refusal :=
  match f with
  | .go s => .next (finish Config.stSuccess s)
  | .raise x s => .next (raiseEntry x s)

/-- A unit command checks its operand before it does anything else (R96, R233, R249). -/
def withOperand {α : Type} (operand : Option α) (s : State) (body : α → Flow) : Flow :=
  match operand with
  | none => .raise .badCommand s
  | some v => body v

/-- `RES0 <- v`. -/
def setRes0 (v : Word) (s : State) : State := { s with res0 := v }

/-- `RES0 <- LEN`, the result of RESERVE, APPEND, APPENDSPAN and LENGTH (R27). -/
def res0Len (s : State) : State := setRes0 s.len s

/-! ### The growable output buffer -/

/-- `buf_new()` (R130): `LEN` and `GROW` 0, and no `OUT` cell holds a defined value any more; the capacity is
the pooled one where `POOL_ENABLE` = 1. -/
def bufNew (s : State) : State :=
  { s with
    len := 0
    grow := 0
    cap := if Config.poolEnable then s.cap else BitVec.ofNat 64 Config.bufInitCap
    out := [] }

/-- `while c < required do c = c * 2` (R131), at most `fuel` times; 54 are enough for every `c >= 1` (R238). -/
def doubleUntil : Nat → Nat → Nat → Nat
  | 0, c, _ => c
  | fuel + 1, c, required => if c < required then doubleUntil fuel (c * 2) required else c

/-- `ceil(c / BUF_ALIGN) * BUF_ALIGN` (R131). -/
def alignUp (c : Nat) : Nat := (c + Config.bufAlign - 1) / Config.bufAlign * Config.bufAlign

/-- The capacity a growing reserve chooses (R131). -/
def grownCap (cap required : Nat) : Nat := alignUp (doubleUntil 54 cap required)

/-- `buf_reserve(n)` (R131). The sum is exact; the overflow check comes before anything else. -/
def bufReserve (n : Nat) (s : State) : Flow :=
  if Config.maxSafeLen < s.len.toNat + n then .raise .lengthOverflow s
  else if s.cap.toNat < s.len.toNat + n then
    .go { s with
      cap := BitVec.ofNat 64 (grownCap s.cap.toNat (s.len.toNat + n))
      grow := s.grow + 1 }
  else .go s

/-- `MemWrite(OUT + LEN, 1, v); LEN <- LEN + 1` (R63): the only way `OUT` is written. -/
def storeCell (v : Cell) (s : State) : State :=
  { s with out := putCell s.out s.len.toNat v, len := s.len + 1 }

/-- `buf_append(v)` (R132). -/
def bufAppend (v : Cell) (s : State) : Flow := (bufReserve 1 s).bind fun s => .go (storeCell v s)

/-- The cells of a span stored in increasing index order (R133). -/
def storeCells : List Cell → State → State
  | [], s => s
  | v :: rest, s => storeCells rest (storeCell v s)

/-- `TOK[0 .. count-1]` as cells (R133). -/
def tokCells (s : State) (count : Nat) : List Cell := (s.tok.toList.take count).map symbolCell

/-- `buf_append_span(count)` (R133): reserve first, then write. -/
def bufAppendSpan (count : Nat) (s : State) : Flow :=
  (bufReserve count s).bind fun s => .go (storeCells (tokCells s count) s)

/-- `repeat n times: buf_append(v)` (R166). -/
def bufAppendTimes : Nat → Cell → State → Flow
  | 0, _, s => .go s
  | n + 1, v, s => (bufAppend v s).bind (bufAppendTimes n v)

/-! ### The symbol units -/

/-- The test of the escape rule, `((t - 2) mod 16) >= 12` on 4 bits (R151): `t` in {0, 1, 14, 15}. -/
def ambiguous (t : Nibble) : Bool := decide (12 ≤ (t - 2#4).toNat)

/-- `TOK[K] <- v; K <- K + 1` (R76). -/
def pushTok (v : Symbol) (s : State) : State :=
  let s' := tokSet s.k.toNat v s
  { s' with k := s'.k + 1 }

/-- `token(t)` (R151): one symbol, or the two of an escape pair. -/
def token (t : Nibble) (s : State) : State :=
  if ambiguous t then pushTok (alpha (t >>> 3)) (pushTok (alpha t) s) else pushTok (alpha t) s

/-- `lookup(s)` (R152): the first index whose entry, zero-extended, is the whole cell; -1 on a miss. Signed, 6
bits, as the register `R` (R32). -/
def lookup (c : Cell) : BitVec 6 :=
  match alphabet.toList.findIdx? fun a => decide (c = symbolCell a) with
  | some i => BitVec.ofNat 6 i
  | none => 0x3F#6

/-- `lookup` returned -1. -/
def lookupMiss : BitVec 6 := 0x3F#6

/-- `T <- CH[3:0]` (R150). -/
def loadNibble (s : State) : State := { s with t := s.ch.extractLsb' 0 4 }

/-- `CH <- CH >> 4`, logical (R150). -/
def dropNibble (s : State) : State := { s with ch := s.ch >>> 4 }

/-- `MemRead(IN + CUR, 1)` (R62). -/
def nextCell (s : State) : Cell := inCell s s.cur.toNat

/-- `CUR <- CUR + 1` (R26, R62). -/
def advance (s : State) : State := { s with cur := s.cur + 1 }

/-- `CH <- MemRead(IN + CUR, 1); CUR <- CUR + 1` (R166, R216). -/
def loadChar (s : State) : State := advance { s with ch := nextCell s }

/-- `CUR < IN_LEN` (R62). -/
def moreInput (s : State) : Bool := decide (s.cur.toNat < s.inLen.toNat)

/-- `next(seed)` (R200): one application of the parameter `NEXT_FN` (R202). -/
def next (seed : U32) : U32 := Config.nextFn seed

/-! ### The frame of a transform -/

/-- `IN_LEN <- ARG0; buf_new(); CUR <- 0; RES0 <- 0` (R42, R166, R181, R216). -/
def startTransform (s : State) : State := bufNew { s with inLen := s.arg0, cur := 0, res0 := 0 }

/-- Sixteen free values, from the `n`-th on. -/
@[irreducible] def freeTok (n : Nat) : Vector Symbol 16 := Vector.ofFn fun i : Fin 16 => Config.freeSymbol (n + i.val)

/-- After a transform the whole of `TOK` is unspecified (R35, R287): sixteen free values. -/
def scrambleTok (s : State) : State := { s with tok := freeTok s.fresh, fresh := s.fresh + 16 }

/-- The end of a transform's body: `finish(1)` or the failure entry (R250, R251). -/
def transformEnd (f : Flow) : State :=
  match f with
  | .go s => finish Config.stSuccess s
  | .raise x s => raiseEntry x s

/-- A transform (R165, R180, R215): start, then the empty test, then the length limit, then its body. -/
def transformResult (limit : Nat) (body : State → Flow) (s : State) : State :=
  let s := startTransform s
  if s.inLen = 0 then finish Config.stEmpty s
  else if limit < s.inLen.toNat then raiseEntry .tooLarge s
  else transformEnd (body s)

/-- A transform with what it leaves in `TOK`. -/
def transform (limit : Nat) (body : State → Flow) (s : State) : Host.Outcome State Fault Refusal :=
  .next (scrambleTok (transformResult limit body s))

end Sys2Proof.Machine
end

