-- ==== Sys2Proof/Machine/Buffer.lean ====
section
/-! DEFINITION. The buffer commands (spec/40_buffer.md): BUFNEW, RESERVE, APPEND, APPENDSPAN, LENGTH. -/

namespace Sys2Proof.Machine

/-- BUFNEW (R130): `buf_new(); RES0 <- 0; finish(1)`. `ARG0` is ignored. -/
def execBufnew (s : State) : Host.Outcome State Fault Refusal :=
  complete (.go (setRes0 0 (bufNew s)))

/-- RESERVE (R131): `buf_reserve(ARG0); RES0 <- LEN; finish(1)`. -/
def execReserve (s : State) : Host.Outcome State Fault Refusal :=
  complete ((bufReserve (reserveOperand s.arg0) s).bind fun s => .go (res0Len s))

/-- APPEND (R132): a value above 16 bits is a bad command; else `buf_append`, `RES0 <- LEN`, `finish(1)`. -/
def execAppend (s : State) : Host.Outcome State Fault Refusal :=
  complete (withOperand (cellOperand s.arg0) s fun v =>
    (bufAppend v s).bind fun s => .go (res0Len s))

/-- APPENDSPAN (R133): a count above 16 is a bad command; else `buf_append_span`, `RES0 <- LEN`, `finish(1)`. -/
def execAppendspan (s : State) : Host.Outcome State Fault Refusal :=
  complete (withOperand (countOperand s.arg0) s fun count =>
    (bufAppendSpan count s).bind fun s => .go (res0Len s))

/-- LENGTH (R134): `RES0 <- LEN; finish(1)`. `ARG0` is ignored. -/
def execLength (s : State) : Host.Outcome State Fault Refusal :=
  complete (.go (res0Len s))

end Sys2Proof.Machine
end

