-- ==== Sys2Proof/Machine/CanonicalDecoder.lean ====
section
/-! DEFINITION. DECODE (spec/43_canonical_decode.md). -/

namespace Sys2Proof.Machine

/-- The scan of R182, at most `fuel` cells: each cell examined is consumed, and the first one that is not a dot
ends the scan. -/
def scanDots : Nat → State → State
  | 0, s => s
  | fuel + 1, s =>
    if moreInput s then
      let c := nextCell s
      let s := advance s
      if c = dotCell then scanDots fuel { s with count := s.count + 1 } else s
    else s

/-- `read_prefix()` (R182). -/
def readPrefix (s : State) : State := scanDots s.inLen.toNat { s with count := 0 }

/-- `emit(v)` (R184, R185): nibble `J` goes to bits `[4J+3 : 4J]` of `ACC`; from the fifth on it has no effect. -/
def emitNibble (v : Nibble) (s : State) : State :=
  { s with
    acc := if s.j.toNat < 4 then s.acc ||| (v.setWidth 16 <<< (4 * s.j.toNat)) else s.acc
    j := s.j + 1 }

/-- A body symbol that is half of an escape pair, `R < 2` (R184). -/
def bodyHalf (s : State) : State :=
  if s.prevValid then clearHalf (emitNibble (pairNibble s.prev s.r) s) else rememberHalf s.r s

/-- A direct body symbol, `R` in 2 .. 13 (R184): an unpaired half is flushed first. -/
def bodyDirect (s : State) : State :=
  let s := if s.prevValid then clearHalf (emitNibble (flushNibble s.prev) s) else s
  emitNibble (s.r.setWidth 4) s

/-- One body symbol read and looked up: `CUR` and `BI` advance, `R <- lookup(s)` (R184). -/
def readSymbol (s : State) : State :=
  let c := nextCell s
  let s := advance s
  { s with bi := s.bi + 1, r := lookup c }

/-- One pass of the loop of R184. -/
def bodyStep (s : State) : Flow :=
  if s.cur.toNat = s.inLen.toNat then .raise .tooLarge s
  else
    let s := readSymbol s
    if s.r = lookupMiss then .raise .tooLarge s
    else if s.r.slt 2#6 then .go (bodyHalf s)
    else .go (bodyDirect s)

/-- `while BI < COUNT` of R184, at most `fuel` symbols. -/
def bodyLoop : Nat → State → Flow
  | 0, s => .go s
  | fuel + 1, s =>
    if s.bi.toNat < s.count.toNat then (bodyStep s).bind (bodyLoop fuel) else .go s

/-- `read_body()` (R184): a record starts clean, and a half pending at its end is dropped. -/
def readBody (s : State) : Flow :=
  bodyLoop s.count.toNat { clearHalf s with j := 0, acc := 0, bi := 0 }

/-- `while CUR < IN_LEN` of R181, at most `fuel` records; a prefix of no dots ends the stream or fails (R183). -/
def decodeLoop : Nat → State → Flow
  | 0, s => .go s
  | fuel + 1, s =>
    if moreInput s then
      let s := readPrefix s
      if s.count = 0 then
        if s.cur.toNat = s.inLen.toNat then .go s else .raise .cannotDecode s
      else (readBody s).bind fun s => (bufAppend s.acc s).bind (decodeLoop fuel)
    else .go s

/-- DECODE (R180 to R186). -/
def execDecode (s : State) : Host.Outcome State Fault Refusal :=
  transform Config.maxDecodeSize (fun s => decodeLoop s.inLen.toNat s) s

end Sys2Proof.Machine
end

