-- ==== Sys2Proof/Machine/CanonicalEncoder.lean ====
section
/-! DEFINITION. ENCODE (spec/42_canonical_encode.md). -/

namespace Sys2Proof.Machine

/-- The nibble loop of R166, `while CH != 0`; four passes are enough for 16 bits (R150). -/
def encodeNibbles : Nat → State → State
  | 0, s => s
  | fuel + 1, s =>
    if s.ch = 0 then s
    else
      let s := loadNibble s
      encodeNibbles fuel (dropNibble (token s.t s))

/-- Step 3 of R166: room for the record, `K` dots, one space, the `K` token symbols. -/
def emitRecord (s : State) : Flow :=
  (bufReserve (2 * s.k.toNat + 1) s).bind fun s =>
    (bufAppendTimes s.k.toNat dotCell s).bind fun s =>
      (bufAppend spaceCell s).bind fun s => bufAppendSpan s.k.toNat s

/-- One character of R166. -/
def encodeChar (s : State) : Flow := emitRecord (encodeNibbles 4 { loadChar s with k := 0 })

/-- `while CUR < IN_LEN` of R166, at most `fuel` characters. -/
def encodeLoop : Nat → State → Flow
  | 0, s => .go s
  | fuel + 1, s => if moreInput s then (encodeChar s).bind (encodeLoop fuel) else .go s

/-- ENCODE (R165, R166). -/
def execEncode (s : State) : Host.Outcome State Fault Refusal :=
  transform Config.maxBufferSize (fun s => encodeLoop s.inLen.toNat s) s

end Sys2Proof.Machine
end

