-- ==== Sys2Proof/Machine/Control.lean ====
section
/-! DEFINITION. RELEASE (spec/46_control_commands.md R232). -/

namespace Sys2Proof.Machine

/-- RELEASE (R232): in DONE, back to IDLE; else nothing. `CMD[63:4]` is not examined and `ARG0` is ignored. -/
def execRelease (_unexamined : BitVec 60) (s : State) : Host.Outcome State Fault Refusal :=
  .next (releaseReturn s)

end Sys2Proof.Machine
end

