-- ==== Sys2Proof/Machine/HashedEncoder.lean ====
section
/-! DEFINITION. HASHENC (spec/45_hashed_encoder.md). The loops take the generator as an argument, so that they can
be tested under the stand-in generators of spec/95_test_vectors.md; the command runs them with `next` (R200). -/

namespace Sys2Proof.Machine

/-- `pad_symbol(TEMP)` (R217). -/
def padSymbol (temp : Nibble) : Symbol :=
  if temp.toNat < 6 then alpha 1#4
  else if temp.toNat < 14 then alpha (temp - 2#4)
  else alpha 0#4

/-- `BNUM <- next(BNUM)` (R216). -/
def advanceBnum (gen : U32 → U32) (s : State) : State := { s with bnum := gen s.bnum }

/-- `for PI = 1 to PAD` of R216, with `left` passes still to run. -/
def padLoop (gen : U32 → U32) : Nat → State → Flow
  | 0, s => .go s
  | left + 1, s =>
    let s := advanceBnum gen { s with pi := s.pad - BitVec.ofNat 5 left }
    let s := { s with temp := s.bnum.extractLsb' 0 4 }
    (bufAppend (symbolCell (padSymbol s.temp)) s).bind (padLoop gen left)

/-- `PAD <- next((T + BNUM) mod 2^32) & 0x1F` (R216): `BNUM` itself is not changed. -/
def choosePad (gen : U32 → U32) (s : State) : State :=
  { s with pad := (gen (s.t.setWidth 32 + s.bnum)).extractLsb' 0 5 }

/-- One nibble of R216: the padding, then the terminal symbol. -/
def hashNibble (gen : U32 → U32) (s : State) : Flow :=
  let s := choosePad gen (loadNibble s)
  (bufReserve (s.pad.toNat + 1) s).bind fun s =>
    (padLoop gen s.pad.toNat s).bind fun s => bufAppend (symbolCell (alpha s.t)) s

/-- `while CH != 0` of R216; four passes are enough for 16 bits (R150). -/
def hashNibbles (gen : U32 → U32) : Nat → State → Flow
  | 0, s => .go s
  | fuel + 1, s =>
    if s.ch = 0 then .go s
    else (hashNibble gen s).bind fun s => hashNibbles gen fuel (dropNibble s)

/-- One character of R216; the advance at its end is made for the character 0x0000 too. -/
def hashChar (gen : U32 → U32) (s : State) : Flow :=
  (hashNibbles gen 4 (loadChar s)).bind fun s => .go (advanceBnum gen s)

/-- `while CUR < IN_LEN` of R216, at most `fuel` characters. -/
def hashLoop (gen : U32 → U32) : Nat → State → Flow
  | 0, s => .go s
  | fuel + 1, s => if moreInput s then (hashChar gen s).bind (hashLoop gen fuel) else .go s

/-- `BNUM <- (IN_LEN[31:0] + next(IN_LEN[31:0])) mod 2^32` (R42, R216). -/
def startBnum (gen : U32 → U32) (s : State) : State :=
  { s with bnum := s.inLen.setWidth 32 + gen (s.inLen.setWidth 32) }

/-- HASHENC under a generator (R215, R216). -/
def hashencWith (gen : U32 → U32) (s : State) : Host.Outcome State Fault Refusal :=
  transform Config.maxBufferSize (fun s => hashLoop gen s.inLen.toNat (startBnum gen s)) s

/-- HASHENC (R215, R216). -/
def execHashenc (s : State) : Host.Outcome State Fault Refusal := hashencWith next s

end Sys2Proof.Machine
end

