-- ==== Sys2Proof/Machine/PaddingGenerator.lean ====
section
/-! DEFINITION. The padding generator (spec/44_padding_generator.md): NEXT, and the reference instance `NEXT_REF`
of the parameter `NEXT_FN`. -/

namespace Sys2Proof.Machine

/-- NEXT (R200): `RES0 <- zext_32(next(ARG0[31:0])); finish(1)`. -/
def execNext (s : State) : Host.Outcome State Fault Refusal :=
  complete (withOperand (seedOperand s.arg0) s fun seed => .go (setRes0 ((next seed).setWidth 64) s))

/-- The odd-branch update of R203, 32-bit wrapping with logical shifts (R204). -/
def oddUpdate (x : U32) : U32 := (x >>> 2) + (x >>> 5) + (x >>> 12) + x * Config.c2

/-- The even-branch update of R203. -/
def evenUpdate (x : U32) : U32 := x - (x >>> 12)

/-- The loop of `NEXT_REF` (R203): the counter's low bit selects the update, then the counter is halved; it is
zero after at most 32 iterations (R238). -/
def nextRefLoop : Nat → U32 → U32 → U32
  | 0, _, x => x
  | fuel + 1, n, x =>
    if n = 0 then x
    else nextRefLoop fuel (n >>> 1) (if n.getLsbD 0 then oddUpdate x else evenUpdate x)

/-- `NEXT_REF` (R203), the reference instance of `NEXT_FN`. No command uses it: the model takes `NEXT_FN` as a
parameter (R202), and so holds no `NN` and no `NX` (R34). -/
def nextRef (seed : U32) : U32 := nextRefLoop 32 (seed * Config.c1) (seed * Config.c1)

end Sys2Proof.Machine
end

