-- ==== Sys2Proof/Machine/SymbolUnits.lean ====
section
/-! DEFINITION. The symbol commands (spec/41_symbol_units.md): LOOKUP and TOKEN. -/

namespace Sys2Proof.Machine

/-- LOOKUP (R152): `RES0 <- sext(lookup(ARG0[15:0])); finish(1)`. A miss is a result, -1. -/
def execLookup (s : State) : Host.Outcome State Fault Refusal :=
  complete (withOperand (cellOperand s.arg0) s fun c => .go (setRes0 ((lookup c).signExtend 64) s))

/-- TOKEN (R151): `K <- 0; token(ARG0[3:0]); RES0 <- K; finish(1)`. -/
def execToken (s : State) : Host.Outcome State Fault Refusal :=
  complete (withOperand (nibbleOperand s.arg0) s fun t =>
    let s := token t { s with k := 0 }
    .go (setRes0 (s.k.setWidth 64) s))

end Sys2Proof.Machine
end

