-- ==== Sys2Proof/Machine/Dispatch.lean ====
section
/-! DEFINITION. The dispatch of spec/46_control_commands.md R231: one arm for each command. -/

namespace Sys2Proof.Machine

def exec (i : Instr) (s : State) : Host.Outcome State Fault Refusal :=
  match i with
  | .encode => Sys2Proof.Machine.execEncode s
  | .decode => Sys2Proof.Machine.execDecode s
  | .hashenc => Sys2Proof.Machine.execHashenc s
  | .next => Sys2Proof.Machine.execNext s
  | .bufnew => Sys2Proof.Machine.execBufnew s
  | .reserve => Sys2Proof.Machine.execReserve s
  | .append => Sys2Proof.Machine.execAppend s
  | .appendspan => Sys2Proof.Machine.execAppendspan s
  | .length => Sys2Proof.Machine.execLength s
  | .lookup => Sys2Proof.Machine.execLookup s
  | .token => Sys2Proof.Machine.execToken s
  | .release unexamined => Sys2Proof.Machine.execRelease unexamined s

end Sys2Proof.Machine
end

