-- ==== Sys2Proof/WellFormed.lean ====
section
/-! DEFINITION. Which commands are written as the spec asks the HOST to write them. -/

namespace Sys2Proof

/-- `CMD[63:4]` "is reserved and must be written as zero" (R22, R90). Only RELEASE, which the engine recognises
by `CMD[3:0]` alone (R232), can carry other bits there and still be a command; a HOST that keeps R22 writes zero. -/
def Instr.wellFormed : Instr → Bool
  | .encode => true
  | .decode => true
  | .hashenc => true
  | .next => true
  | .bufnew => true
  | .reserve => true
  | .append => true
  | .appendspan => true
  | .length => true
  | .lookup => true
  | .token => true
  | .release unexamined => unexamined == 0

end Sys2Proof
end

