-- ==== Sys2Proof/Decode.lean ====
section
/-! DEFINITION. The command word `CMD` (spec/30_encoding.md R90, R95, R106; dispatch order R231, R232): decoding,
total on every 64-bit word and rejecting by name, and the encoder. -/

namespace Sys2Proof

/-- Why a `CMD` word is no command (R106). Each makes the write a bad command (R231, R233). -/
inductive DecodeError where
  /-- A non-zero bit in `CMD[63:4]` of a word that is not RELEASE. -/
  | reservedBits
  /-- `OP` is one of the reserved codes 0x0, 0xC, 0xD, 0xE. -/
  | reservedOp (op : BitVec 4)
deriving DecidableEq, Repr

/-- `OP = CMD[3:0]` (R90). -/
def cmdOp (w : Word) : BitVec 4 := w.extractLsb' 0 4

/-- `CMD[63:4]` (R90). -/
def cmdReserved (w : Word) : BitVec 60 := w.extractLsb' 4 60

/-- RELEASE is recognised by `CMD[3:0]` only (R232); any other word is a bad command if `CMD[63:4]` is not zero,
and then if `OP` is reserved (R231); else `OP` selects the command (R95). -/
def decode (w : Word) : Except DecodeError Instr :=
  if cmdOp w = 0xF#4 then .ok (.release (cmdReserved w))
  else if cmdReserved w ≠ 0 then .error .reservedBits
  else
    match cmdOp w with
    | 0x1#4 => .ok .encode
    | 0x2#4 => .ok .decode
    | 0x3#4 => .ok .hashenc
    | 0x4#4 => .ok .next
    | 0x5#4 => .ok .bufnew
    | 0x6#4 => .ok .reserve
    | 0x7#4 => .ok .append
    | 0x8#4 => .ok .appendspan
    | 0x9#4 => .ok .length
    | 0xA#4 => .ok .lookup
    | 0xB#4 => .ok .token
    | op => .error (.reservedOp op)

/-- The `CMD` word of a command (R90, R95). -/
def encode : Instr → Word
  | .encode => 0x1#64
  | .decode => 0x2#64
  | .hashenc => 0x3#64
  | .next => 0x4#64
  | .bufnew => 0x5#64
  | .reserve => 0x6#64
  | .append => 0x7#64
  | .appendspan => 0x8#64
  | .length => 0x9#64
  | .lookup => 0xA#64
  | .token => 0xB#64
  | .release unexamined => unexamined ++ 0xF#4

/-- The `CMD` word of an opcode-table row: the row's bits below `nbits`, zero above (the table numbers the bits of
`CMD` as R90 does, bit 0 the least significant). -/
def tableWord (nbits w : Nat) : Word := BitVec.ofNat 64 (w % 2 ^ nbits)

/-- The command the decoder reads from a word of the opcode table; `none` where it rejects the word. -/
def decodeTableWord (nbits w : Nat) : Option Instr :=
  match decode (tableWord nbits w) with
  | .ok i => some i
  | .error _ => none

end Sys2Proof
end

