-- ==== Sys2Proof/Machine/HostAccess.lean ====
section
/-! DEFINITION. What the HOST can do at the interface but for `CMD` (spec/46_control_commands.md R234, R236;
spec/20_memory.md R64; spec/70_reset_and_hazards.md R280, R281). -/

namespace Sys2Proof.Machine

/-! ### Registers -/

/-- The code of `STATE` (R21); bits `[63:2]` read 0. -/
def stateCode : EngineState → Word
  | .idle => 0
  | .busy => 1
  | .done => 2

/-- The level output `done` (R248). -/
def doneLine (s : State) : Bool := s.state == .done

/-- `STATUS`, `PAYLOAD_LEN` and `RES0` are valid only in DONE (R24, R25, R27, R234, R235). -/
def validInDone (s : State) (v : Word) : Option Word := if s.state = .done then some v else none

/-- What register `n` reads as outside BUSY (R30, R234); `none` where the spec says "any value". -/
def quietRegister (s : State) (n : Nat) : Option Word :=
  if n = 0 then some 0
  else if n = 1 then some s.arg0
  else if n = 2 then some (stateCode s.state)
  else if n = 3 then validInDone s s.status
  else if n = 4 then validInDone s s.payloadLen
  else if n = 5 then validInDone s s.res0
  else if n = 6 then some s.len
  else if n = 7 then some s.cap
  else if n = 8 then some s.grow
  else if n = 9 then some (BitVec.ofNat 64 Config.maxBufferSize)
  else if n = 10 then some (BitVec.ofNat 64 Config.maxDecodeSize)
  else if n < 16 then some 0
  else if n < 32 then some ((alpha (BitVec.ofNat 4 (n - 16))).setWidth 64)
  else if n < 48 then some ((tokAt s (n - 32)).setWidth 64)
  else some 0

/-- What a HOST read of register `n` returns: in BUSY only `STATE` is defined (R236). -/
def readRegister (s : State) (n : Nat) : Option Word :=
  if s.state = .busy then (if n = 2 then some (stateCode s.state) else none) else quietRegister s n

/-- A HOST write of a register other than `CMD` (R30, R234): `ARG0` in IDLE and DONE, `TOK[i]` (low 8 bits) in
IDLE; every other write is ignored. -/
def writeRegister (n : Nat) (v : Word) (s : State) : State :=
  if n = 1 then (if s.state = .busy then s else { s with arg0 := v })
  else if 32 ≤ n ∧ n < 48 then
    (if s.state = .idle then tokSet (n - 32) (v.setWidth 8) s else s)
  else s

/-! ### Reads: the value goes to the model's `hostData` -/

/-- A read that returns a defined value. -/
def deliver (v : Word) (s : State) : State := { s with hostData := v }

/-- A register read that returns any value: the next free value (R236). -/
def deliverFreeWord (s : State) : State :=
  { s with hostData := Config.freeWord s.fresh, fresh := s.fresh + 1 }

/-- A cell read that returns any value: the next free value (R64, R285). -/
def deliverFreeCell (s : State) : State :=
  { s with hostData := (Config.freeCell s.fresh).setWidth 64, fresh := s.fresh + 1 }

/-- `read(reg)` (R234). -/
def hostReadReg (n : Nat) (s : State) : State :=
  match readRegister s n with
  | some v => deliver v s
  | none => deliverFreeWord s

/-- A HOST read of `OUT[i]` (R64): defined only in DONE and below `PAYLOAD_LEN`. -/
def hostReadOut (i : Nat) (s : State) : State :=
  if s.state = .done ∧ i < s.payloadLen.toNat then deliver ((outCell s i).setWidth 64) s
  else deliverFreeCell s

/-- A HOST read of `IN[i]` (R234); in BUSY any value (R236). -/
def hostReadIn (i : Nat) (s : State) : State :=
  if s.state = .busy then deliverFreeCell s else deliver ((inCell s i).setWidth 64) s

/-! ### Writes of `IN`, and reset -/

/-- A transform is running and `IN[i]` is one of its input cells (R64, R236, R283). -/
def inputInUse (i : Nat) (s : State) : Bool :=
  match s.state, s.held with
  | .busy, some w =>
    match decode w with
    | .ok .encode => decide (i < s.arg0.toNat)
    | .ok .decode => decide (i < s.arg0.toNat)
    | .ok .hashenc => decide (i < s.arg0.toNat)
    | _ => false
  | _, _ => false

/-- A HOST write of `IN[i]` (R64). -/
def hostWriteIn (i : Nat) (v : Cell) (s : State) : State := { s with inp := putCell s.inp i v }

/-- The reset input (R280, R281), in any state: everything of the engine takes its reset value; `IN`, the schedule
and the model's read port are the HOST's and stay. -/
def resetEngine (s : State) : State :=
  { State.reset with inp := s.inp, inputs := s.inputs, hostData := s.hostData, fresh := s.fresh }

/-! ### The HOST's programs -/

/-- `TOKSET i, v` (R110): the HOST write `TOK[i] <- v`. -/
def tokset (i : Nat) (v : Symbol) : HostEvent := .writeReg (32 + i) (v.setWidth 64)

/-- The writes `IN[i] <- c` of a list of cells, from index `i` on (R110, R282). -/
def storeInput : Nat → List Cell → List HostEvent
  | _, [] => []
  | i, c :: rest => .writeIn i c :: storeInput (i + 1) rest

/-- `TRANSFORM` up to DONE (R111, R282 (2) to (5)): store the input, `ARG0 <- len(input)`, `CMD <- OP`, and let the
ENGINE run. -/
def transformEvents (op : Word) (input : List Cell) : List HostEvent :=
  storeInput 0 input ++ [.writeReg 1 (BitVec.ofNat 64 input.length), .writeReg 0 op, .engine]

end Sys2Proof.Machine
end

