-- ==== Sys2Proof/Machine/Sequencer.lean ====
section
/-! DEFINITION. Who moves next and what the move is: the acceptance of a `CMD` write (spec/46_control_commands.md
R230), the ENGINE's turn (R231, R233), and the HOST's actions. Machine/Step.lean runs the command a move names. -/

namespace Sys2Proof.Machine

/-- One move of the machine. -/
inductive Move where
  /-- The move is complete and leaves this state. -/
  | settle (s : State)
  /-- The run is refused. -/
  | refuse (r : Refusal)
  /-- The command runs, from this state. -/
  | run (i : Instr) (s : State)
deriving DecidableEq, Repr

/-- A HOST write of `CMD` (R230): RELEASE is taken in IDLE and DONE; any other word is latched in IDLE, with
`STATE <- BUSY`; every other write is ignored. `ARG0` cannot change until the command completes (R23), so the
register itself is the operand's sample. -/
def writeCmd (w : Word) (s : State) : Move :=
  if cmdOp w = 0xF#4 then
    if s.state = .busy then .settle s else .run (.release (cmdReserved w)) s
  else
    if s.state = .idle then .settle { s with state := .busy, held := some w } else .settle s

/-- The ENGINE's turn: in BUSY the held command runs to its completion (R11, R231), and a held word that is no
command is a bad command (R233); else nothing changes (R294). -/
def engineTurn (s : State) : Move :=
  match s.state, s.held with
  | .busy, some w =>
    match decode w with
    | .ok i => .run i s
    | .error _ => .settle (raiseEntry .badCommand s)
  | _, _ => .settle s

/-- A HOST action (R64, R230, R234, R236, R280). -/
def hostAction (e : HostEvent) (s : State) : Move :=
  match e with
  | .readReg n => .settle (hostReadReg n s)
  | .writeReg n v => if n = 0 then writeCmd v s else .settle (writeRegister n v s)
  | .readIn i => .settle (hostReadIn i s)
  | .writeIn i v => if inputInUse i s then .refuse .inputChangedWhileBusy else .settle (hostWriteIn i v s)
  | .readOut i => .settle (hostReadOut i s)
  | .reset => .settle (resetEngine s)
  | .engine => engineTurn s

/-- The schedule says who moves; when it is empty the ENGINE does. -/
def nextMove (s : State) : Move :=
  match s.inputs with
  | [] => engineTurn s
  | e :: rest => hostAction e { s with inputs := rest }

/-- The HOST has written the word `cmd` to `CMD` and the ENGINE moves next (RELEASE, which is not latched, is the
HOST's next write). -/
def placeCommand (s : State) (cmd : Word) : State :=
  if cmdOp cmd = 0xF#4 then
    { s with
      state := if s.state = .busy then .done else s.state
      held := none
      inputs := .writeReg 0 cmd :: s.inputs }
  else
    { s with
      state := .busy
      held := some cmd
      inputs := match s.inputs with
        | [] => []
        | later => .engine :: later }

end Sys2Proof.Machine
end

