-- ==== Sys2Proof/Machine/Step.lean ====
section
/-! DEFINITION. One step of the machine: the next move, and the command it names. -/

namespace Sys2Proof.Machine

/-- One step: a HOST action or the ENGINE's turn; a command runs whole, in one step (R11). -/
def step (s : State) : Host.Outcome State Fault Refusal :=
  match nextMove s with
  | .settle s' => .next s'
  | .refuse r => .refused r
  | .run i s' => exec i s'

/-- The state in which the next step runs the command of an opcode-table word (notes/assumptions/2.md). -/
def State.withFetchWord (s : State) (nbits w : Nat) : State := placeCommand s (tableWord nbits w)

end Sys2Proof.Machine
end

