-- ==== Sys2Proof/Safety.lean ====
section
/-! DEFINITION. The terms the statements are made in: the reference reading of the data encodings
(spec/30_encoding.md, as pure functions on lists of cells), what a HOST can see of a result, the invariant of the
machine, and what a HOST that keeps the rules does. -/

namespace Sys2Proof.Reference

open Sys2Proof.Machine

/-! ### Nibbles, tokens, records (R99 to R102) -/

/-- Nibble `j` of a character is bits `[4j+3 : 4j]` (R66, R99). -/
def nibbleAt (c : Cell) (j : Nat) : Nibble := c.extractLsb' (4 * j) 4

/-- The nibbles of a character, least significant first, by the table of R99. -/
def nibblesOf (c : Cell) : List Nibble :=
  if c.toNat = 0 then []
  else if c.toNat < 0x10 then [nibbleAt c 0]
  else if c.toNat < 0x100 then [nibbleAt c 0, nibbleAt c 1]
  else if c.toNat < 0x1000 then [nibbleAt c 0, nibbleAt c 1, nibbleAt c 2]
  else [nibbleAt c 0, nibbleAt c 1, nibbleAt c 2, nibbleAt c 3]

/-- The four ambiguous nibble values (R12, R100). -/
def isAmbiguous (t : Nibble) : Bool := t == 0 || t == 1 || t == 14 || t == 15

/-- The token of a nibble (R100): `alphabet[t]`, and for an ambiguous one `alphabet[t >> 3]` after it. -/
def tokenOf (t : Nibble) : List Symbol := if isAmbiguous t then [alpha t, alpha (t >>> 3)] else [alpha t]

/-- The body of a Character Record: the tokens of the nibbles, in order (R101). -/
def bodyOf (c : Cell) : List Cell := ((nibblesOf c).flatMap tokenOf).map symbolCell

/-- The Character Record of a character (R101): `k` dots, a space, the `k` symbols of the body. -/
def record (c : Cell) : List Cell := List.replicate (bodyOf c).length dotCell ++ spaceCell :: bodyOf c

/-- The Encoded Stream of a text (R102). -/
def encodedStream (text : List Cell) : List Cell := text.flatMap record

/-- The 14 cell values of R98. -/
def streamCells : List Cell :=
  [0x20, 0x2E, 0x5F, 0x3F, 0x3C, 0x3E, 0x28, 0x29, 0x7B, 0x7D, 0x22, 0x27, 0x21, 0x2C]

/-! ### Decoding (R98, R104, R105, R107, R180 to R186) -/

/-- The inverse table of R98: the index of a cell in `streamCells`, which lists them in index order. -/
def indexOf (c : Cell) : Option Nat := streamCells.findIdx? fun v => v == c

/-- The nibbles a token body spells, `pending` being the index of an unpaired half; `none` on an unknown symbol
(R104, R184). -/
def bodyNibbles : Option Nat → List Cell → Option (List Nibble)
  | _, [] => some []
  | pending, c :: rest =>
    match indexOf c, pending with
    | none, _ => none
    | some r, none =>
      if r < 2 then bodyNibbles (some r) rest
      else (bodyNibbles none rest).map (BitVec.ofNat 4 r :: ·)
    | some r, some p =>
      if r < 2 then (bodyNibbles none rest).map (BitVec.ofNat 4 (p + 14 * r) :: ·)
      else (bodyNibbles none rest).map (BitVec.ofNat 4 p :: BitVec.ofNat 4 r :: ·)

/-- The character of a list of nibbles in arrival order; a fifth or later nibble has no effect (R185). -/
def assemble (ns : List Nibble) : Cell :=
  (ns.take 4).foldr (fun n acc => n.setWidth 16 ||| (acc <<< 4)) 0

/-- What DECODE makes of a stream, at most `fuel` records (R105, R182 to R186): the text, or the first failure. -/
def decodedWithin : Nat → List Cell → Except Raise (List Cell)
  | 0, _ => .ok []
  | fuel + 1, stream =>
    if stream = [] then .ok []
    else
      let k := (stream.takeWhile (· == dotCell)).length
      let rest := stream.drop (k + 1)
      if k = 0 then (if rest = [] then .ok [] else .error .cannotDecode)
      else if rest.length < k then .error .tooLarge
      else
        match bodyNibbles none (rest.take k) with
        | none => .error .tooLarge
        | some ns =>
          match decodedWithin fuel (rest.drop k) with
          | .ok text => .ok (assemble ns :: text)
          | .error x => .error x

/-- What DECODE makes of a stream (R186); every record takes a cell, so its length bounds the records. -/
def decodedText (stream : List Cell) : Except Raise (List Cell) := decodedWithin stream.length stream

/-! ### The Hashed Stream (R103, R216, R217) -/

/-- `n` padding symbols, and the accumulator after them (R216 step 2). -/
def padding (gen : U32 → U32) : Nat → U32 → List Cell × U32
  | 0, b => ([], b)
  | n + 1, b =>
    let rest := padding gen n (gen b)
    (symbolCell (padSymbol ((gen b).setWidth 4)) :: rest.1, rest.2)

/-- The symbols of a list of nibbles, and the accumulator after them (R216 steps 1 to 3). -/
def hashedNibbles (gen : U32 → U32) : List Nibble → U32 → List Cell × U32
  | [], b => ([], b)
  | c :: cs, b =>
    let pad := padding gen ((gen (c.setWidth 32 + b)).toNat % 32) b
    let rest := hashedNibbles gen cs pad.2
    (pad.1 ++ symbolCell (alpha c) :: rest.1, rest.2)

/-- The symbols of a text from an accumulator on; it advances once more after each character (R216). -/
def hashedFrom (gen : U32 → U32) : List Cell → U32 → List Cell
  | [], _ => []
  | c :: cs, b =>
    let out := hashedNibbles gen (nibblesOf c) b
    out.1 ++ hashedFrom gen cs (gen out.2)

/-- The Hashed Stream of a text (R103, R216): the accumulator starts at `len + next(len)`. -/
def hashedStream (gen : U32 → U32) (text : List Cell) : List Cell :=
  hashedFrom gen text (BitVec.ofNat 32 text.length + gen (BitVec.ofNat 32 text.length))

/-! ### Growth of the buffer (R131, R135) -/

/-- `c` is the capacity that R131 chooses for `required` cells from capacity `c0` (with `BUF_ALIGN` = 1): the least
doubling of `c0` that is at least `required`. -/
def LeastDoubling (c0 required c : Nat) : Prop :=
  ∃ g, c = c0 * 2 ^ g ∧ required ≤ c ∧ ∀ g', g' < g → c0 * 2 ^ g' < required

end Sys2Proof.Reference

namespace Sys2Proof.Machine

/-! ### What the HOST sees -/

/-- The payload: `OUT[0 .. PAYLOAD_LEN-1]` (R12, R25). -/
def payload (s : State) : List Cell := (List.range s.payloadLen.toNat).map (outCell s)

/-- The cells of the buffer: `OUT[0 .. LEN-1]` (R28, R61). -/
def contents (s : State) : List Cell := (List.range s.len.toNat).map (outCell s)

/-- The input of a transform started now: `IN[0 .. ARG0-1]` (R60, R96). -/
def inputCells (s : State) : List Cell := (List.range s.arg0.toNat).map (inCell s)

/-- The results of a completed command (R245, R250, R251): the status, the length it goes with, `RES0`, DONE, and
the sequencer free. -/
def Completed (t : State) (status payloadLen res0 : Word) : Prop :=
  t.status = status ∧ t.payloadLen = payloadLen ∧ t.res0 = res0 ∧ t.state = .done ∧ t.held = none

/-- A failed command (R251). -/
def Failed (t : State) (x : Raise) : Prop := Completed t (raiseCode x) 0 0

/-! ### Frames -/

/-- What belongs to the HOST: `IN`, `ARG0`, the schedule and the read port. -/
def SameHost (s t : State) : Prop :=
  t.inp = s.inp ∧ t.arg0 = s.arg0 ∧ t.inputs = s.inputs ∧ t.hostData = s.hostData

/-- The buffer's registers. -/
def SameBufferRegs (s t : State) : Prop := t.len = s.len ∧ t.cap = s.cap ∧ t.grow = s.grow

/-- The working registers other than `K` (R26, R31 to R33). -/
def SameWorkButK (s t : State) : Prop :=
  t.cur = s.cur ∧ t.inLen = s.inLen ∧ t.ch = s.ch ∧ t.t = s.t ∧ t.count = s.count ∧ t.bi = s.bi ∧ t.r = s.r ∧
    t.prev = s.prev ∧ t.prevValid = s.prevValid ∧ t.j = s.j ∧ t.acc = s.acc ∧ t.bnum = s.bnum ∧ t.pad = s.pad ∧
    t.temp = s.temp ∧ t.pi = s.pi

/-- The working registers (R26, R31 to R33). -/
def SameWork (s t : State) : Prop := SameWorkButK s t ∧ t.k = s.k

/-- The encoder's working registers (R31). -/
def SameEncodeWork (s t : State) : Prop := t.ch = s.ch ∧ t.t = s.t ∧ t.k = s.k

/-- The decoder's working registers (R32). -/
def SameDecodeWork (s t : State) : Prop :=
  t.count = s.count ∧ t.bi = s.bi ∧ t.r = s.r ∧ t.prev = s.prev ∧ t.prevValid = s.prevValid ∧ t.j = s.j ∧
    t.acc = s.acc

/-- The hashed encoder's working registers (R33). -/
def SameHashWork (s t : State) : Prop := t.bnum = s.bnum ∧ t.pad = s.pad ∧ t.temp = s.temp ∧ t.pi = s.pi

/-- `TOK` and the model's count of free values. -/
def SameTok (s t : State) : Prop := t.tok = s.tok ∧ t.fresh = s.fresh

/-- Every cell of `OUT` reads as before. -/
def SameOut (s t : State) : Prop := ∀ i, outCell t i = outCell s i

/-- What reserving `n` cells in `s` does to the capacity (R131): nothing where they fit; else the least doubling
that holds them, counted as one reallocation. -/
def GrewFor (n : Nat) (s t : State) : Prop :=
  (s.len.toNat + n ≤ s.cap.toNat → t.cap = s.cap ∧ t.grow = s.grow) ∧
  (s.cap.toNat < s.len.toNat + n →
    Reference.LeastDoubling s.cap.toNat (s.len.toNat + n) t.cap.toNat ∧ t.grow = s.grow + 1)

/-- The capacity of `t` is that of `s` doubled `g` times, the least number of doublings that holds the cells of `t`
(R135 (d), with `BUF_ALIGN` = 1). -/
def DoubledTo (g : Nat) (s t : State) : Prop :=
  t.cap.toNat = s.cap.toNat * 2 ^ g ∧ t.len.toNat ≤ t.cap.toNat ∧ ∀ g', g' < g → s.cap.toNat * 2 ^ g' < t.len.toNat

/-- `s` after a failed command that changed nothing else (R233, R251). -/
def failedWith (code : Word) (s : State) : State :=
  { s with status := code, payloadLen := 0, res0 := 0, state := .done, held := none }

/-! ### The invariant -/

/-- What holds of the buffer between commands (R28, R40, R61, R135): its length, its capacity, its count of
reallocations, and which `OUT` cells hold a value. -/
structure BufferInv (s : State) : Prop where
  out_wf : s.out.wf
  out_cells : ∀ i, (cellAt s.out i).isSome = true ↔ i < s.len.toNat
  len_le_cap : s.len.toNat ≤ s.cap.toNat
  len_le_safe : s.len.toNat ≤ Config.maxSafeLen
  cap_pos : 1 ≤ s.cap.toNat
  cap_bound : s.cap.toNat ≤ 2 ^ 54
  grow_cap : 2 ^ s.grow.toNat ≤ s.cap.toNat

/-- What the result registers hold between commands (R24, R25, R27, R235): a legal status; the length of the payload
is `LEN` on success and 0 else; `RES0` is 0 unless the command succeeded. -/
structure ResultInv (s : State) : Prop where
  status_legal : s.status = Config.stSuccess ∨ s.status = Config.stEmpty ∨ ∃ x, s.status = raiseCode x
  payload_len : s.payloadLen = if s.status = Config.stSuccess then s.len else 0
  res0_zero : s.status ≠ Config.stSuccess → s.res0 = 0
  empty_len : s.status = Config.stEmpty → s.len = 0

/-- The invariant of the machine. The sequencer holds a command exactly in BUSY, and never RELEASE (R26, R230). -/
structure Inv (s : State) : Prop where
  buffer : BufferInv s
  result : ResultInv s
  inp_wf : s.inp.wf
  held_busy : s.held.isSome = true ↔ s.state = .busy
  held_not_release : ∀ w, s.held = some w → cmdOp w ≠ 0xF#4

/-! ### What a HOST that keeps the rules does -/

/-- A transform is held or running: `IN[0 .. ARG0-1]` is its input (R64, R230, R283). -/
def TransformHeld (s : State) : Prop :=
  s.state = .busy ∧ ∃ w, s.held = some w ∧
    (decode w = .ok .encode ∨ decode w = .ok .decode ∨ decode w = .ok .hashenc)

/-- Whether the rules let the HOST make this action in this state: no write that would be ignored (R284), no `IN`
write while a command runs (R64, R283), no read that returns any value (R234, R236, R285). -/
def hostKeepsRules (e : HostEvent) (s : State) : Bool :=
  match e with
  | .readReg n => (readRegister s n).isSome
  | .writeReg n v =>
    if n = 0 then s.state == .idle || (s.state == .done && cmdOp v == 0xF#4)
    else if n = 1 then s.state != .busy
    else decide (32 ≤ n) && decide (n < 48) && s.state == .idle
  | .readIn _ => s.state != .busy
  | .writeIn _ _ => s.state != .busy
  | .readOut i => s.state == .done && decide (i < s.payloadLen.toNat)
  | .reset => true
  | .engine => true

/-- A run of commands that appends cells one at a time: for each cell, the HOST writes it to `ARG0` and the APPEND
runs (R110, R132). -/
def appendEach : List Cell → State → Host.Outcome State Fault Refusal
  | [], s => .next s
  | v :: rest, s =>
    match exec .append { s with arg0 := v.setWidth 64 } with
    | .next t => appendEach rest t
    | .fault r => .fault r
    | .refused r => .refused r

end Sys2Proof.Machine
end

