-- ==== Sys2Proof/Certificates/Slice0/Obligations.lean ====
section
/-! DEFINITION. The statements about the UWC model, for the provers. -/

open Sys2Proof Sys2Proof.Machine Sys2Proof.Reference

/-! ### The command word -/

/-- The decoder and the encoder agree in both directions (R90, R95): no bit of a command word is dropped. -/
def Obligations.DecodeIsInverseOfEncode : Prop :=
  ∀ (w : Word) (i : Instr), decode w = .ok i ↔ encode i = w

/-- The reserved command words (R106), and only those, are rejected, a non-zero `CMD[63:4]` before a reserved `OP`
(R231). -/
def Obligations.ReservedWordsAreRejected : Prop :=
  ∀ w : Word,
    (decode w = .error .reservedBits ↔ w.toNat % 16 ≠ 15 ∧ 16 ≤ w.toNat) ∧
    (∀ op, decode w = .error (.reservedOp op) ↔
      op.toNat = w.toNat ∧ (w.toNat = 0 ∨ w.toNat = 12 ∨ w.toNat = 13 ∨ w.toNat = 14))

/-- The words of the OP map (R95) decode to their commands; RELEASE does with any upper bits (R232). -/
def Obligations.OpMapWordsDecode : Prop :=
  decode 0x1#64 = .ok .encode ∧ decode 0x2#64 = .ok .decode ∧ decode 0x3#64 = .ok .hashenc ∧
  decode 0x4#64 = .ok .next ∧ decode 0x5#64 = .ok .bufnew ∧ decode 0x6#64 = .ok .reserve ∧
  decode 0x7#64 = .ok .append ∧ decode 0x8#64 = .ok .appendspan ∧ decode 0x9#64 = .ok .length ∧
  decode 0xA#64 = .ok .lookup ∧ decode 0xB#64 = .ok .token ∧ decode 0xF#64 = .ok (.release 0) ∧
  decode 0x1F#64 = .ok (.release 1)

/-! ### Starting a command -/

/-- A step runs the decoded command: in BUSY the held word's, on the ENGINE's turn; a RELEASE write's at once. -/
def Obligations.StepRunsTheDecodedCommand : Prop :=
  (∀ (s : State) (w : Word) (i : Instr), s.state = .busy → s.held = some w → decode w = .ok i →
    (s.inputs = [] → step s = exec i s) ∧
    (∀ rest, s.inputs = .engine :: rest → step s = exec i { s with inputs := rest })) ∧
  (∀ (s : State) (w : Word) (u : BitVec 60) (rest : List HostEvent), s.state ≠ .busy →
    s.inputs = .writeReg 0 w :: rest → decode w = .ok (.release u) →
    step s = exec (.release u) { s with inputs := rest })

/-- The word placed by `withFetchWord` is the one the next step runs (the model's own: notes/assumptions/2.md). -/
def Obligations.PlacedWordRunsNext : Prop :=
  ∀ (s : State) (nbits w : Nat) (i : Instr), decodeTableWord nbits w = some i →
    ∃ s', step (s.withFetchWord nbits w) = exec i s' ∧
      s' = { s with state := s'.state, held := s'.held }

/-- What a write to `CMD` does, by `STATE` (R230): an accepted word is held with its `ARG0` and is what the ENGINE
turns to next, a command to run (R231), any other word to complete with -4 (R233). That a reserved word too is held
in BUSY until that turn is the model's reading (notes/assumptions/7.md). -/
def Obligations.CmdWriteByState : Prop :=
  ∀ (s : State) (w : Word) (rest : List HostEvent), s.inputs = .writeReg 0 w :: rest →
    (s.state = .idle → w.toNat % 16 = 15 → step s = .next { s with inputs := rest }) ∧
    (s.state = .idle → w.toNat % 16 ≠ 15 →
      ∃ t, step s = .next t ∧ t = { s with inputs := rest, state := .busy, held := some w } ∧
        (rest = [] → (∀ i, decode w = .ok i → step t = exec i t) ∧
          (∀ e, decode w = .error e → step t = .next (failedWith 0xFFFFFFFFFFFFFFFC#64 t)))) ∧
    (s.state = .busy → step s = .next { s with inputs := rest }) ∧
    (s.state = .done → w.toNat % 16 = 15 → step s = .next { s with inputs := rest, state := .idle }) ∧
    (s.state = .done → w.toNat % 16 ≠ 15 → step s = .next { s with inputs := rest })

/-- Bad commands (R233): a reserved `OP` or a non-zero reserved bit, and an operand outside the legal range; status
-4, and nothing else changes. -/
def Obligations.BadCommandChangesNothingElse : Prop :=
  (∀ (s : State) (w : Word), s.inputs = [] → s.state = .busy → s.held = some w →
    w.toNat % 16 ≠ 15 → (16 ≤ w.toNat ∨ w.toNat = 0 ∨ w.toNat = 12 ∨ w.toNat = 13 ∨ w.toNat = 14) →
    step s = .next (failedWith 0xFFFFFFFFFFFFFFFC#64 s)) ∧
  (∀ s : State,
    (2 ^ 32 ≤ s.arg0.toNat → exec .next s = .next (failedWith 0xFFFFFFFFFFFFFFFC#64 s)) ∧
    (2 ^ 16 ≤ s.arg0.toNat → exec .append s = .next (failedWith 0xFFFFFFFFFFFFFFFC#64 s)) ∧
    (17 ≤ s.arg0.toNat → exec .appendspan s = .next (failedWith 0xFFFFFFFFFFFFFFFC#64 s)) ∧
    (2 ^ 16 ≤ s.arg0.toNat → exec .lookup s = .next (failedWith 0xFFFFFFFFFFFFFFFC#64 s)) ∧
    (2 ^ 4 ≤ s.arg0.toNat → exec .token s = .next (failedWith 0xFFFFFFFFFFFFFFFC#64 s)))

/-! ### The buffer -/

/-- BUFNEW (R130, with `POOL_ENABLE` = 1, notes/assumptions/15.md): an empty buffer of the same capacity, no cell of it
defined. -/
def Obligations.BufnewEmptiesTheBuffer : Prop :=
  ∀ s : State, ∃ t, exec .bufnew s = .next t ∧ Completed t 1 0 0 ∧ t.len = 0 ∧ t.grow = 0 ∧ t.cap = s.cap ∧
    (∀ i, cellAt t.out i = none) ∧ SameHost s t ∧ SameWork s t ∧ SameTok s t

/-- RESERVE (R131, with `BUF_ALIGN` = 1, notes/assumptions/15.md): room for `ARG0` more cells by repeated doubling. -/
def Obligations.ReserveGrowsByDoubling : Prop :=
  ∀ s : State, 1 ≤ s.cap.toNat → s.len.toNat + s.arg0.toNat ≤ 2 ^ 53 - 1 →
    ∃ t, exec .reserve s = .next t ∧ Completed t 1 s.len s.len ∧ t.len = s.len ∧
      GrewFor s.arg0.toNat s t ∧ s.len.toNat + s.arg0.toNat ≤ t.cap.toNat ∧
      SameOut s t ∧ SameHost s t ∧ SameWork s t ∧ SameTok s t

/-- Length-overflow (R131 to R133): checked on the exact sum, before anything changes. -/
def Obligations.LengthOverflowChangesNothingElse : Prop :=
  ∀ s : State,
    (2 ^ 53 - 1 < s.len.toNat + s.arg0.toNat → exec .reserve s = .next (failedWith 0xFFFFFFFFFFFFFFFD#64 s)) ∧
    (s.arg0.toNat < 2 ^ 16 → 2 ^ 53 - 1 ≤ s.len.toNat →
      exec .append s = .next (failedWith 0xFFFFFFFFFFFFFFFD#64 s)) ∧
    (s.arg0.toNat ≤ 16 → 2 ^ 53 - 1 < s.len.toNat + s.arg0.toNat →
      exec .appendspan s = .next (failedWith 0xFFFFFFFFFFFFFFFD#64 s))

/-- APPEND (R132): the cell goes to `OUT[LEN]`, and every other cell reads as before. The capacity is that of
`BUF_ALIGN` = 1 (notes/assumptions/15.md). -/
def Obligations.AppendStoresAtLen : Prop :=
  ∀ (s : State) (v : Cell), s.arg0 = v.setWidth 64 → 1 ≤ s.cap.toNat → s.len.toNat < 2 ^ 53 - 1 →
    ∃ t, exec .append s = .next t ∧ Completed t 1 (s.len + 1) (s.len + 1) ∧
      t.len.toNat = s.len.toNat + 1 ∧ GrewFor 1 s t ∧
      (∀ i, outCell t i = if i = s.len.toNat then v else outCell s i) ∧
      SameHost s t ∧ SameWork s t ∧ SameTok s t

/-- APPENDSPAN (R133): `TOK[0 .. count-1]` goes to `OUT[LEN .. LEN+count-1]`, and every other cell reads as before.
The capacity is that of `BUF_ALIGN` = 1 (notes/assumptions/15.md). -/
def Obligations.AppendspanStoresTheSpan : Prop :=
  ∀ s : State, s.arg0.toNat ≤ 16 → 1 ≤ s.cap.toNat → s.len.toNat + s.arg0.toNat ≤ 2 ^ 53 - 1 →
    ∃ t, exec .appendspan s = .next t ∧ Completed t 1 (s.len + s.arg0) (s.len + s.arg0) ∧
      t.len.toNat = s.len.toNat + s.arg0.toNat ∧ GrewFor s.arg0.toNat s t ∧
      (∀ j : Fin 16, j.val < s.arg0.toNat → outCell t (s.len.toNat + j.val) = (s.tok[j]).setWidth 16) ∧
      (∀ i, i < s.len.toNat ∨ s.len.toNat + s.arg0.toNat ≤ i → outCell t i = outCell s i) ∧
      SameHost s t ∧ SameWork s t ∧ SameTok s t

/-- LENGTH (R134): `RES0 <- LEN`, success, and nothing else changes. -/
def Obligations.LengthReturnsLen : Prop :=
  ∀ s : State, exec .length s =
    .next { s with res0 := s.len, status := 1, payloadLen := s.len, state := .done, held := none }

/-- No command but a transform or BUFNEW changes a cell already in the buffer (R135 (a)). -/
def Obligations.StoredCellsSurvive : Prop :=
  ∀ (i : Instr) (s t : State), i ≠ .encode → i ≠ .decode → i ≠ .hashenc → i ≠ .bufnew → exec i s = .next t →
    s.len.toNat ≤ t.len.toNat ∧ ∀ a, a < s.len.toNat → outCell t a = outCell s a

/-- Appending cells one at a time to an empty buffer (R135 (d)): all of them are there, the capacity is the least
doubling that holds them, and it was reached by as many reallocations as doublings. The capacity is that of
`BUF_ALIGN` = 1, as R135 (d) supposes (notes/assumptions/15.md). -/
def Obligations.SingleAppendsDoubleOnceEach : Prop :=
  ∀ (vs : List Cell) (s : State), s.len = 0 → s.grow = 0 → 1 ≤ s.cap.toNat → vs.length ≤ 2 ^ 53 - 1 →
    ∃ t g, appendEach vs s = .next t ∧ contents t = vs ∧ t.len.toNat = vs.length ∧
      t.cap.toNat = s.cap.toNat * 2 ^ g ∧ vs.length ≤ t.cap.toNat ∧
      (∀ g', g' < g → s.cap.toNat * 2 ^ g' < vs.length) ∧ t.grow.toNat = g

/-! ### The symbol units -/

/-- LOOKUP (R152): the first index whose entry, zero-extended, is the cell; -1 on a miss. -/
def Obligations.LookupReturnsFirstIndex : Prop :=
  ∀ (s : State) (c : Cell), s.arg0 = c.setWidth 64 →
    ∃ t, exec .lookup s = .next t ∧ Completed t 1 s.len t.res0 ∧
      (∀ k : Nibble, c = symbolCell (alpha k) → (∀ k' : Nibble, k' < k → c ≠ symbolCell (alpha k')) →
        t.res0 = k.setWidth 64) ∧
      ((∀ k : Nibble, c ≠ symbolCell (alpha k)) → t.res0 = 0xFFFFFFFFFFFFFFFF#64) ∧
      SameBufferRegs s t ∧ SameOut s t ∧ SameHost s t ∧ SameWork s t ∧ SameTok s t

/-- The inverse table (R98), all of it: fourteen cells have an index, every other 16-bit value is a miss. -/
def Obligations.InverseTableIsFirstMatch : Prop :=
  (([0x0020, 0x002E, 0x005F, 0x003F, 0x003C, 0x003E, 0x0028, 0x0029, 0x007B, 0x007D, 0x0022, 0x0027, 0x0021,
      0x002C] : List Cell).map lookup = (List.range 14).map (BitVec.ofNat 6)) ∧
  ∀ c : Cell,
    c ∉ ([0x0020, 0x002E, 0x005F, 0x003F, 0x003C, 0x003E, 0x0028, 0x0029, 0x007B, 0x007D, 0x0022, 0x0027, 0x0021,
      0x002C] : List Cell) → (lookup c).toInt = -1

/-- TOKEN (R151): the token's one or two symbols in `TOK[0]`, `TOK[1]`, their count in `RES0`. -/
def Obligations.TokenWritesTheSymbols : Prop :=
  ∀ (s : State) (t : Nibble), s.arg0 = t.setWidth 64 →
    ∃ u, exec .token s = .next u ∧ Completed u 1 s.len (if t ∈ [0, 1, 14, 15] then 2 else 1) ∧
      u.tok[0] = alpha t ∧
      u.tok[1] = (if t ∈ [0, 1, 14, 15] then alpha (t >>> 3) else s.tok[1]) ∧
      (∀ j : Fin 16, 2 ≤ j.val → u.tok[j] = s.tok[j]) ∧ u.k.setWidth 64 = u.res0 ∧ u.fresh = s.fresh ∧
      SameBufferRegs s u ∧ SameOut s u ∧ SameHost s u ∧ SameWorkButK s u

/-- The complete token table (R100), as `token` leaves it in `TOK`. -/
def Obligations.TokenTableIsComplete : Prop :=
  ∀ (s : State) (t : Nibble),
    (token t { s with k := 0 }).tok.toList.take (token t { s with k := 0 }).k.toNat =
      ([[0x20, 0x20], [0x2E, 0x20], [0x5F], [0x3F], [0x3C], [0x3E], [0x28], [0x29], [0x7B], [0x7D], [0x22], [0x27],
        [0x21], [0x2C], [0x20, 0x2E], [0x2E, 0x2E]] : List (List Symbol)).getD t.toNat []

/-- The decoder's pair table (R104), and that it inverts the two-symbol tokens of R100. -/
def Obligations.PairTableInvertsEscapes : Prop :=
  pairNibble 0 (lookup 0x0020) = 0 ∧ pairNibble 1 (lookup 0x0020) = 1 ∧
  pairNibble 0 (lookup 0x002E) = 14 ∧ pairNibble 1 (lookup 0x002E) = 15 ∧
  ∀ t : Nibble, t ∈ [0, 1, 14, 15] →
    pairNibble ((lookup (symbolCell (alpha t))).setWidth 1) (lookup (symbolCell (alpha (t >>> 3)))) = t

/-- The laws connecting the units (R153 (a) to (c)). -/
def Obligations.LookupInvertsTokens : Prop :=
  ∀ t : Nibble,
    (ambiguous t = false →
      (lookup (symbolCell (alpha t))).toNat = t.toNat ∧ 2 ≤ (lookup (symbolCell (alpha t))).toNat) ∧
    (ambiguous t = true →
      (lookup (symbolCell (alpha t))).toNat < 2 ∧ (lookup (symbolCell (alpha (t >>> 3)))).toNat < 2 ∧
      (lookup (symbolCell (alpha t))).toNat + 14 * (lookup (symbolCell (alpha (t >>> 3)))).toNat = t.toNat)

/-- The nibble loop of ENCODE leaves the tokens of the character's nibbles in `TOK` (R150, R151, R166). -/
def Obligations.NibbleLoopFillsTok : Prop :=
  ∀ (s : State) (c : Cell), ∃ u, u = encodeNibbles 4 { s with ch := c, k := 0 } ∧ u.ch = 0 ∧ u.k.toNat ≤ 8 ∧
    u.k.toNat = (nibblesOf c).length + (nibblesOf c).countP isAmbiguous ∧
    u.tok.toList.take u.k.toNat = (nibblesOf c).flatMap tokenOf

/-- The tokens of a character spell its nibbles, and the nibbles make up the character (R150, R153 (d), R185). -/
def Obligations.TokensRecoverTheCharacter : Prop :=
  ∀ c : Cell, bodyNibbles none (bodyOf c) = some (nibblesOf c) ∧ assemble (nibblesOf c) = c ∧
    (∀ t, (nibblesOf c).getLast? = some t → t ≠ 0)

/-! ### The padding generator -/

/-- NEXT (R200): `RES0` is the generator's value of the seed, for whatever `NEXT_FN` is; nothing else is touched. -/
def Obligations.NextReturnsTheGenerator : Prop :=
  ∀ (s : State) (seed : U32), s.arg0 = seed.setWidth 64 →
    ∃ t, exec .next s = .next t ∧ Completed t 1 s.len ((Config.nextFn seed).setWidth 64) ∧
      SameBufferRegs s t ∧ SameOut s t ∧ SameHost s t ∧ SameWork s t ∧ SameTok s t

/-- Values of the reference instance `NEXT_REF` (R203). -/
def Obligations.NextRefTableValues : Prop :=
  nextRef 0x00000000 = 0x00000000 ∧ nextRef 0x00000001 = 0x58AD1C69 ∧ nextRef 0x00000002 = 0xCECFBDA6 ∧
  nextRef 0x00000003 = 0xCD629DD6 ∧ nextRef 0x00000004 = 0x72FEB571 ∧ nextRef 0x00000005 = 0xFB591566 ∧
  nextRef 0x00000041 = 0xD3DE154C ∧ nextRef 0x00003039 = 0x8F1A2252 ∧ nextRef 0x80000000 = 0x654E4074 ∧
  nextRef 0xFFFFFFFF = 0x4C0D7E9D

/-- The loop of `NEXT_REF` ends within 32 iterations, with the counter at zero (R203, R238). -/
def Obligations.NextRefLoopEnds : Prop :=
  ∀ (extra : Nat) (n x : U32), nextRefLoop (32 + extra) n x = nextRefLoop 32 n x ∧ n >>> 32 = 0

/-! ### The transforms -/

/-- The empty input and the length limit (R165, R180, R215), tested before any cell is read, on a fresh buffer (R42,
R130). The clauses `t.cap = s.cap` are those of `POOL_ENABLE` = 1 (R130; notes/assumptions/15.md). -/
def Obligations.TransformPreconditions : Prop :=
  ∀ (i : Instr) (limit : Nat) (s : State),
    (i, limit) ∈ [(Instr.encode, 16777216), (Instr.decode, 134217728), (Instr.hashenc, 16777216)] →
    (s.arg0 = 0 → ∃ t, exec i s = .next t ∧ Completed t 0 0 0 ∧ t.len = 0 ∧ t.grow = 0 ∧ t.cap = s.cap ∧
      SameHost s t ∧ SameEncodeWork s t ∧ SameDecodeWork s t ∧ SameHashWork s t) ∧
    (limit < s.arg0.toNat → ∃ t, exec i s = .next t ∧ Completed t 0xFFFFFFFFFFFFFFFF#64 0 0 ∧ t.len = 0 ∧
      t.grow = 0 ∧ t.cap = s.cap ∧ SameHost s t ∧ SameEncodeWork s t ∧ SameDecodeWork s t ∧ SameHashWork s t)

/-- ENCODE (R166): the payload is the Encoded Stream of the input. The capacity is the pooled one, doubled as often as
the payload needs (R135 (d), (e), with `POOL_ENABLE` = 1 and `BUF_ALIGN` = 1, notes/assumptions/15.md), in at most as
many reallocations. -/
def Obligations.EncodePayloadIsEncodedStream : Prop :=
  ∀ s : State, 0 < s.arg0.toNat → s.arg0.toNat ≤ 16777216 →
    ∃ t, exec .encode s = .next t ∧ Completed t 1 t.len 0 ∧ payload t = encodedStream (inputCells s) ∧
      t.cur.toNat = s.arg0.toNat ∧ t.inLen = s.arg0 ∧ SameHost s t ∧ SameDecodeWork s t ∧ SameHashWork s t ∧
      (1 ≤ s.cap.toNat → ∃ g, DoubledTo g s t ∧ t.grow.toNat ≤ g)

/-- The length and the cells of an ENCODE payload (R167). -/
def Obligations.EncodeLengthLaw : Prop :=
  ∀ s : State, 0 < s.arg0.toNat → s.arg0.toNat ≤ 16777216 →
    ∃ t, exec .encode s = .next t ∧ t.status = 1 ∧
      t.payloadLen.toNat = s.arg0.toNat + 2 * ((inputCells s).map fun c =>
        (nibblesOf c).length + (nibblesOf c).countP isAmbiguous).sum ∧
      s.arg0.toNat ≤ t.payloadLen.toNat ∧ t.payloadLen.toNat ≤ 17 * s.arg0.toNat ∧
      ∀ c ∈ payload t, c ∈ streamCells

/-- ENCODE of zero-valued characters (R168): one lone space for each. -/
def Obligations.ZeroCharactersEncodeAsSpaces : Prop :=
  ∀ s : State, 0 < s.arg0.toNat → s.arg0.toNat ≤ 16777216 → (∀ i, i < s.arg0.toNat → inCell s i = 0) →
    ∃ t, exec .encode s = .next t ∧ Completed t 1 s.arg0 0 ∧
      payload t = List.replicate s.arg0.toNat 0x0020

/-- DECODE of a stream the rules accept (R181 to R186): status 1, the decoded text, and the whole input read (R26).
The capacity is the pooled one, doubled as often as the payload needs, in as many reallocations: DECODE appends one
cell at a time (R135 (d), (e), with `POOL_ENABLE` = 1 and `BUF_ALIGN` = 1, notes/assumptions/15.md). -/
def Obligations.DecodePayloadIsDecodedText : Prop :=
  ∀ (s : State) (text : List Cell), 0 < s.arg0.toNat → s.arg0.toNat ≤ 134217728 →
    decodedText (inputCells s) = .ok text →
    ∃ t, exec .decode s = .next t ∧ Completed t 1 t.len 0 ∧ payload t = text ∧
      t.cur.toNat = s.arg0.toNat ∧ t.inLen = s.arg0 ∧ SameHost s t ∧ SameEncodeWork s t ∧ SameHashWork s t ∧
      (1 ≤ s.cap.toNat → ∃ g, DoubledTo g s t ∧ t.grow.toNat = g)

/-- DECODE of a stream the rules reject (R183, R184, R186): the first failure's status. -/
def Obligations.DecodeReportsFirstFailure : Prop :=
  ∀ (s : State) (x : Raise), 0 < s.arg0.toNat → s.arg0.toNat ≤ 134217728 →
    decodedText (inputCells s) = .error x →
    (x = .tooLarge ∨ x = .cannotDecode) ∧
    ∃ t, exec .decode s = .next t ∧ Failed t x ∧ t.inLen = s.arg0 ∧ SameHost s t ∧ SameEncodeWork s t ∧
      SameHashWork s t

/-- A first cell that is not a dot (R183): success when it is the only cell, -2 else. -/
def Obligations.ZeroDotPrefix : Prop :=
  ∀ s : State, inCell s 0 ≠ 0x002E →
    (s.arg0.toNat = 1 → ∃ t, exec .decode s = .next t ∧ Completed t 1 0 0) ∧
    (1 < s.arg0.toNat → s.arg0.toNat ≤ 134217728 →
      ∃ t, exec .decode s = .next t ∧ Completed t 0xFFFFFFFFFFFFFFFE#64 0 0)

/-- On success DECODE writes at most a third as many cells as it was given (R187 (c)). -/
def Obligations.DecodeShrinksToAThird : Prop :=
  ∀ s t : State, exec .decode s = .next t → t.status = 1 → 3 * t.payloadLen.toNat ≤ s.arg0.toNat

/-- The round trip (R187 (a)): DECODE of what ENCODE made of a text without zero characters gives the text back. -/
def Obligations.DecodeInvertsEncode : Prop :=
  ∀ s : State, 0 < s.arg0.toNat → s.arg0.toNat ≤ 16777216 → (∀ c ∈ inputCells s, c ≠ 0) →
    (encodedStream (inputCells s)).length ≤ 134217728 →
    ∃ t, exec .encode s = .next t ∧ t.status = 1 ∧
      ∀ u : State, u.arg0 = t.payloadLen → (∀ i, i < t.payloadLen.toNat → inCell u i = outCell t i) →
        ∃ v, exec .decode u = .next v ∧ v.status = 1 ∧ payload v = inputCells s

/-- HASHENC (R216), for whatever `NEXT_FN` is: the payload is the Hashed Stream of the input. The capacity is the
pooled one, doubled as often as the payload needs (R135 (d), (e), with `POOL_ENABLE` = 1 and `BUF_ALIGN` = 1,
notes/assumptions/15.md), in at most as many reallocations. -/
def Obligations.HashencPayloadIsHashedStream : Prop :=
  ∀ s : State, 0 < s.arg0.toNat → s.arg0.toNat ≤ 16777216 →
    ∃ t, exec .hashenc s = .next t ∧ Completed t 1 t.len 0 ∧
      payload t = hashedStream Config.nextFn (inputCells s) ∧
      t.cur.toNat = s.arg0.toNat ∧ t.inLen = s.arg0 ∧ t.k = s.k ∧ SameHost s t ∧ SameDecodeWork s t ∧
      (1 ≤ s.cap.toNat → ∃ g, DoubledTo g s t ∧ t.grow.toNat ≤ g)

/-- The length and the cells of a HASHENC payload (R218 (b), (d)). -/
def Obligations.HashencLengthLaw : Prop :=
  ∀ s : State, 0 < s.arg0.toNat → s.arg0.toNat ≤ 16777216 →
    ∃ t m, exec .hashenc s = .next t ∧ t.status = 1 ∧ m = ((inputCells s).map fun c => (nibblesOf c).length).sum ∧
      m ≤ t.payloadLen.toNat ∧ t.payloadLen.toNat ≤ 32 * m ∧ 32 * m ≤ 128 * s.arg0.toNat ∧
      ∀ c ∈ payload t, c ∈ streamCells

/-- Padding symbol selection (R217): the complete table. -/
def Obligations.PadSymbolTable : Prop :=
  ((List.range 16).map fun n => padSymbol (BitVec.ofNat 4 n)) =
    [0x2E, 0x2E, 0x2E, 0x2E, 0x2E, 0x2E, 0x3C, 0x3E, 0x28, 0x29, 0x7B, 0x7D, 0x22, 0x27, 0x20, 0x20]

/-- The result of a transform is a function of its input alone (R40, R187 (e), R218 (a), R252): no register, no
earlier command and no capacity has any part in it. -/
def Obligations.TransformsDependOnInputOnly : Prop :=
  ∀ (i : Instr) (s s' t t' : State), i = .encode ∨ i = .decode ∨ i = .hashenc →
    s'.arg0 = s.arg0 → (∀ a, a < s.arg0.toNat → inCell s' a = inCell s a) →
    exec i s = .next t → exec i s' = .next t' →
    t'.status = t.status ∧ t'.payloadLen = t.payloadLen ∧ t'.res0 = t.res0 ∧ payload t' = payload t

/-! ### Completion and return -/

/-- RELEASE (R232): DONE to IDLE, no effect in IDLE or BUSY, `CMD[63:4]` not examined. -/
def Obligations.ReleaseReturnsToIdle : Prop :=
  ∀ (s : State) (u : BitVec 60),
    (s.state = .done → exec (.release u) s = .next { s with state := .idle }) ∧
    (s.state ≠ .done → exec (.release u) s = .next s)

/-- `finish(s)` (R250). -/
def Obligations.FinishReportsTheResult : Prop :=
  ∀ s : State,
    finish 1 s = { s with status := 1, payloadLen := s.len, state := .done, held := none } ∧
    finish 0 s = { s with status := 0, payloadLen := 0, state := .done, held := none }

/-- Failure entry (R251): the code, no payload, no result, DONE; all else is left as it is. -/
def Obligations.RaiseRecordsOnlyTheStatus : Prop :=
  ∀ s : State,
    raiseEntry .tooLarge s = failedWith 0xFFFFFFFFFFFFFFFF#64 s ∧
    raiseEntry .cannotDecode s = failedWith 0xFFFFFFFFFFFFFFFE#64 s ∧
    raiseEntry .lengthOverflow s = failedWith 0xFFFFFFFFFFFFFFFD#64 s ∧
    raiseEntry .badCommand s = failedWith 0xFFFFFFFFFFFFFFFC#64 s

/-- Which command can end with which status (R246). -/
def Obligations.StatusesOfEachCommand : Prop :=
  ∀ (i : Instr) (s t : State), exec i s = .next t →
    match i with
    | .encode => t.status ∈ [1, 0, 0xFFFFFFFFFFFFFFFF]
    | .decode => t.status ∈ [1, 0, 0xFFFFFFFFFFFFFFFF, 0xFFFFFFFFFFFFFFFE]
    | .hashenc => t.status ∈ [1, 0, 0xFFFFFFFFFFFFFFFF]
    | .next => t.status ∈ [1, 0xFFFFFFFFFFFFFFFC]
    | .bufnew => t.status = 1
    | .reserve => t.status ∈ [1, 0xFFFFFFFFFFFFFFFD]
    | .append => t.status ∈ [1, 0xFFFFFFFFFFFFFFFD, 0xFFFFFFFFFFFFFFFC]
    | .appendspan => t.status ∈ [1, 0xFFFFFFFFFFFFFFFD, 0xFFFFFFFFFFFFFFFC]
    | .length => t.status = 1
    | .lookup => t.status ∈ [1, 0xFFFFFFFFFFFFFFFC]
    | .token => t.status ∈ [1, 0xFFFFFFFFFFFFFFFC]
    | .release _ => t.status = s.status

/-- No command writes `IN` or `ARG0` (R23, R60). -/
def Obligations.CommandsNeverWriteTheHostsSide : Prop :=
  ∀ (i : Instr) (s t : State), exec i s = .next t → SameHost s t

/-! ### What the HOST can do -/

/-- HOST reads of the register map outside BUSY (R29, R30, R234): the value, and nothing else changes but the
model's read port and its count of free values. -/
def Obligations.RegisterMapReads : Prop :=
  ∀ (s : State) (n : Nat) (rest : List HostEvent), s.inputs = .readReg n :: rest → s.state ≠ .busy →
    ∃ t, step s = .next t ∧ t = { s with inputs := rest, hostData := t.hostData, fresh := t.fresh } ∧
      (n = 0 → t.hostData = 0) ∧ (n = 1 → t.hostData = s.arg0) ∧
      (n = 2 → s.state = .idle → t.hostData = 0) ∧ (n = 2 → s.state = .done → t.hostData = 2) ∧
      (n = 3 → s.state = .done → t.hostData = s.status) ∧
      (n = 4 → s.state = .done → t.hostData = s.payloadLen) ∧
      (n = 5 → s.state = .done → t.hostData = s.res0) ∧
      (n = 6 → t.hostData = s.len) ∧ (n = 7 → t.hostData = s.cap) ∧ (n = 8 → t.hostData = s.grow) ∧
      (n = 9 → t.hostData = 16777216) ∧ (n = 10 → t.hostData = 134217728) ∧
      (11 ≤ n → n ≤ 15 → t.hostData = 0) ∧
      (∀ j : Fin 16, n = 16 + j.val → t.hostData = (alphabet[j]).setWidth 64) ∧
      (∀ j : Fin 16, n = 32 + j.val → t.hostData = (s.tok[j]).setWidth 64) ∧
      (48 ≤ n → t.hostData = 0)

/-- HOST writes of registers other than `CMD` (R30, R234): `ARG0` in IDLE and DONE, `TOK[i]` (its low 8 bits) in
IDLE; every other write is ignored. -/
def Obligations.RegisterMapWrites : Prop :=
  ∀ (s : State) (n : Nat) (v : Word) (rest : List HostEvent), s.inputs = .writeReg n v :: rest → n ≠ 0 →
    (n = 1 → s.state ≠ .busy → step s = .next { s with inputs := rest, arg0 := v }) ∧
    (∀ j : Fin 16, n = 32 + j.val → s.state = .idle →
      step s = .next { s with inputs := rest, tok := s.tok.set j (v.setWidth 8) }) ∧
    (n ≠ 1 → n < 32 ∨ 48 ≤ n → step s = .next { s with inputs := rest }) ∧
    (s.state = .busy → step s = .next { s with inputs := rest }) ∧
    (32 ≤ n → s.state = .done → step s = .next { s with inputs := rest })

/-- In BUSY `STATE` reads 1, and no HOST read or write of a register changes anything of the machine (R236). -/
def Obligations.BusyAdmitsOnlyStateReads : Prop :=
  ∀ (s : State) (n : Nat) (v : Word) (rest : List HostEvent), s.state = .busy →
    (s.inputs = .writeReg n v :: rest → step s = .next { s with inputs := rest }) ∧
    (s.inputs = .readReg n :: rest → ∃ t, step s = .next t ∧
      t = { s with inputs := rest, hostData := t.hostData, fresh := t.fresh } ∧ (n = 2 → t.hostData = 1))

/-- The payload window (R64): in DONE and below `PAYLOAD_LEN` the HOST reads the payload's cell; no read of `OUT`
changes anything of the machine. -/
def Obligations.PayloadWindow : Prop :=
  ∀ (s : State) (i : Nat) (rest : List HostEvent), s.inputs = .readOut i :: rest →
    ∃ t, step s = .next t ∧ t = { s with inputs := rest, hostData := t.hostData, fresh := t.fresh } ∧
      (∀ c, s.state = .done → (payload s)[i]? = some c → t.hostData = c.setWidth 64)

/-- Reset, in any state (R41, R280, R281): the values the spec gives; `IN` is not of the machine and stays. -/
def Obligations.ResetEventValues : Prop :=
  ∀ (s : State) (rest : List HostEvent), s.inputs = .reset :: rest →
    ∃ t, step s = .next t ∧ t.state = .idle ∧ t.held = none ∧ t.arg0 = 0 ∧ t.status = 0 ∧ t.payloadLen = 0 ∧
      t.res0 = 0 ∧ t.len = 0 ∧ t.cap = 16 ∧ t.grow = 0 ∧ (∀ i, cellAt t.out i = none) ∧ t.inp = s.inp ∧
      t.inputs = rest

/-- The values the spec gives the machine right after reset (R41). -/
def Obligations.ResetStateValues : Prop :=
  State.reset.state = .idle ∧ State.reset.arg0 = 0 ∧ State.reset.status = 0 ∧ State.reset.payloadLen = 0 ∧
  State.reset.res0 = 0 ∧ State.reset.len = 0 ∧ State.reset.cap = 16 ∧ State.reset.grow = 0

/-! ### The machine -/

/-- The invariant holds right after reset. -/
def Obligations.InvariantAtReset : Prop := Inv State.reset

/-- Every step keeps the invariant (R28, R40, R135 (b), R235). -/
def Obligations.StepKeepsInvariant : Prop := ∀ s t : State, Inv s → step s = .next t → Inv t

/-- The only run the model refuses is one in which the HOST writes an input cell under a held or running transform
(R236, R283). -/
def Obligations.OnlyInputChangesAreRefused : Prop :=
  ∀ (s : State) (r : Refusal), step s = .refused r →
    r = .inputChangedWhileBusy ∧ TransformHeld s ∧
      ∃ i v rest, s.inputs = .writeIn i v :: rest ∧ i < s.arg0.toNat

/-- A HOST that keeps the rules is never refused (R64, R234, R284, R285). -/
def Obligations.KeepingTheRulesNeverStops : Prop :=
  ∀ (s : State) (e : HostEvent) (rest : List HostEvent), s.inputs = e :: rest → hostKeepsRules e s = true →
    ∃ t, step s = .next t

/-- A command accepted in BUSY reaches DONE, whatever the HOST reads or writes at the registers in the meantime
(R236, R238, R294 (a)). -/
def Obligations.EveryAcceptedCommandCompletes : Prop :=
  ∀ s : State, Inv s → s.state = .busy → (∀ e ∈ s.inputs, e ≠ .reset ∧ ∀ i v, e ≠ .writeIn i v) →
    ∃ n t, n ≤ s.inputs.length + 1 ∧ Host.Core.run Sys2Proof.core n s = .next t ∧ State.state t = .done

/-- In IDLE and DONE nothing changes until the HOST acts (R294 (b), (c)). -/
def Obligations.QuietWithoutTheHost : Prop :=
  ∀ s : State, s.inputs = [] → s.state ≠ .busy → step s = .next s

/-! ### The input space -/

/-- A HOST write of an input cell under a held or running transform is refused (R236, R283, V8; that every cell below
`ARG0` counts, whatever the command's limit, is the model's reading: notes/assumptions/13.md). -/
def Obligations.InputChangesUnderATransformAreRefused : Prop :=
  ∀ (s : State) (i : Nat) (v : Cell) (rest : List HostEvent), s.inputs = .writeIn i v :: rest →
    TransformHeld s → i < s.arg0.toNat → step s = .refused .inputChangedWhileBusy

/-- A HOST write of `IN[i]` that is not to an input cell of a held transform stores the cell, and every other cell
reads as before (R60, R64, R234). That it does so in BUSY too, where R64 forbids the HOST to write, is the model's
reading (notes/assumptions/13.md). -/
def Obligations.InputWritesStoreOneCell : Prop :=
  ∀ (s : State) (i : Nat) (v : Cell) (rest : List HostEvent), s.inputs = .writeIn i v :: rest →
    ¬(TransformHeld s ∧ i < s.arg0.toNat) →
    ∃ t, step s = .next t ∧ t = { s with inputs := rest, inp := t.inp } ∧
      ∀ a, inCell t a = if a = i then v else inCell s a

/-- Outside BUSY a HOST read of `IN[i]` returns the cell (R60, R234), zero-extended in the model's read port
(notes/assumptions/6.md); no read of `IN` changes anything of the machine. -/
def Obligations.InputReadsReturnTheCell : Prop :=
  ∀ (s : State) (i : Nat) (rest : List HostEvent), s.inputs = .readIn i :: rest →
    ∃ t, step s = .next t ∧ t = { s with inputs := rest, hostData := t.hostData, fresh := t.fresh } ∧
      (s.state ≠ .busy → t.hostData = (inCell s i).setWidth 64)
end

