-- ==== Sys2Proof/Laws/State.lean ====
section
/-! SUPPORT. What each shared update of State does to each field: one lemma per field, true by `rfl`, so that no proof
unfolds a record update. -/

namespace Sys2Proof.Machine

variable (s : State)

/-! ### `finish` -/

@[simp] theorem finish_arg0 (st : Word) : (finish st s).arg0 = s.arg0 := rfl
@[simp] theorem finish_state (st : Word) : (finish st s).state = .done := rfl
@[simp] theorem finish_status (st : Word) : (finish st s).status = st := rfl
@[simp] theorem finish_payloadLen (st : Word) :
    (finish st s).payloadLen = if st = Config.stSuccess then s.len else 0 := rfl
@[simp] theorem finish_res0 (st : Word) : (finish st s).res0 = s.res0 := rfl
@[simp] theorem finish_len (st : Word) : (finish st s).len = s.len := rfl
@[simp] theorem finish_cap (st : Word) : (finish st s).cap = s.cap := rfl
@[simp] theorem finish_grow (st : Word) : (finish st s).grow = s.grow := rfl
@[simp] theorem finish_tok (st : Word) : (finish st s).tok = s.tok := rfl
@[simp] theorem finish_held (st : Word) : (finish st s).held = none := rfl
@[simp] theorem finish_cur (st : Word) : (finish st s).cur = s.cur := rfl
@[simp] theorem finish_inLen (st : Word) : (finish st s).inLen = s.inLen := rfl
@[simp] theorem finish_ch (st : Word) : (finish st s).ch = s.ch := rfl
@[simp] theorem finish_t (st : Word) : (finish st s).t = s.t := rfl
@[simp] theorem finish_k (st : Word) : (finish st s).k = s.k := rfl
@[simp] theorem finish_count (st : Word) : (finish st s).count = s.count := rfl
@[simp] theorem finish_bi (st : Word) : (finish st s).bi = s.bi := rfl
@[simp] theorem finish_r (st : Word) : (finish st s).r = s.r := rfl
@[simp] theorem finish_prev (st : Word) : (finish st s).prev = s.prev := rfl
@[simp] theorem finish_prevValid (st : Word) : (finish st s).prevValid = s.prevValid := rfl
@[simp] theorem finish_j (st : Word) : (finish st s).j = s.j := rfl
@[simp] theorem finish_acc (st : Word) : (finish st s).acc = s.acc := rfl
@[simp] theorem finish_bnum (st : Word) : (finish st s).bnum = s.bnum := rfl
@[simp] theorem finish_pad (st : Word) : (finish st s).pad = s.pad := rfl
@[simp] theorem finish_temp (st : Word) : (finish st s).temp = s.temp := rfl
@[simp] theorem finish_pi (st : Word) : (finish st s).pi = s.pi := rfl
@[simp] theorem finish_out (st : Word) : (finish st s).out = s.out := rfl
@[simp] theorem finish_inp (st : Word) : (finish st s).inp = s.inp := rfl
@[simp] theorem finish_inputs (st : Word) : (finish st s).inputs = s.inputs := rfl
@[simp] theorem finish_hostData (st : Word) : (finish st s).hostData = s.hostData := rfl
@[simp] theorem finish_fresh (st : Word) : (finish st s).fresh = s.fresh := rfl

/-! ### `raiseEntry` -/

@[simp] theorem raiseEntry_arg0 (x : Raise) : (raiseEntry x s).arg0 = s.arg0 := rfl
@[simp] theorem raiseEntry_state (x : Raise) : (raiseEntry x s).state = .done := rfl
@[simp] theorem raiseEntry_status (x : Raise) : (raiseEntry x s).status = raiseCode x := rfl
@[simp] theorem raiseEntry_payloadLen (x : Raise) : (raiseEntry x s).payloadLen = 0 := rfl
@[simp] theorem raiseEntry_res0 (x : Raise) : (raiseEntry x s).res0 = 0 := rfl
@[simp] theorem raiseEntry_len (x : Raise) : (raiseEntry x s).len = s.len := rfl
@[simp] theorem raiseEntry_cap (x : Raise) : (raiseEntry x s).cap = s.cap := rfl
@[simp] theorem raiseEntry_grow (x : Raise) : (raiseEntry x s).grow = s.grow := rfl
@[simp] theorem raiseEntry_tok (x : Raise) : (raiseEntry x s).tok = s.tok := rfl
@[simp] theorem raiseEntry_held (x : Raise) : (raiseEntry x s).held = none := rfl
@[simp] theorem raiseEntry_cur (x : Raise) : (raiseEntry x s).cur = s.cur := rfl
@[simp] theorem raiseEntry_inLen (x : Raise) : (raiseEntry x s).inLen = s.inLen := rfl
@[simp] theorem raiseEntry_ch (x : Raise) : (raiseEntry x s).ch = s.ch := rfl
@[simp] theorem raiseEntry_t (x : Raise) : (raiseEntry x s).t = s.t := rfl
@[simp] theorem raiseEntry_k (x : Raise) : (raiseEntry x s).k = s.k := rfl
@[simp] theorem raiseEntry_count (x : Raise) : (raiseEntry x s).count = s.count := rfl
@[simp] theorem raiseEntry_bi (x : Raise) : (raiseEntry x s).bi = s.bi := rfl
@[simp] theorem raiseEntry_r (x : Raise) : (raiseEntry x s).r = s.r := rfl
@[simp] theorem raiseEntry_prev (x : Raise) : (raiseEntry x s).prev = s.prev := rfl
@[simp] theorem raiseEntry_prevValid (x : Raise) : (raiseEntry x s).prevValid = s.prevValid := rfl
@[simp] theorem raiseEntry_j (x : Raise) : (raiseEntry x s).j = s.j := rfl
@[simp] theorem raiseEntry_acc (x : Raise) : (raiseEntry x s).acc = s.acc := rfl
@[simp] theorem raiseEntry_bnum (x : Raise) : (raiseEntry x s).bnum = s.bnum := rfl
@[simp] theorem raiseEntry_pad (x : Raise) : (raiseEntry x s).pad = s.pad := rfl
@[simp] theorem raiseEntry_temp (x : Raise) : (raiseEntry x s).temp = s.temp := rfl
@[simp] theorem raiseEntry_pi (x : Raise) : (raiseEntry x s).pi = s.pi := rfl
@[simp] theorem raiseEntry_out (x : Raise) : (raiseEntry x s).out = s.out := rfl
@[simp] theorem raiseEntry_inp (x : Raise) : (raiseEntry x s).inp = s.inp := rfl
@[simp] theorem raiseEntry_inputs (x : Raise) : (raiseEntry x s).inputs = s.inputs := rfl
@[simp] theorem raiseEntry_hostData (x : Raise) : (raiseEntry x s).hostData = s.hostData := rfl
@[simp] theorem raiseEntry_fresh (x : Raise) : (raiseEntry x s).fresh = s.fresh := rfl

/-! ### `releaseReturn` -/

@[simp] theorem releaseReturn_arg0 : (releaseReturn s).arg0 = s.arg0 := rfl
@[simp] theorem releaseReturn_state : (releaseReturn s).state = if s.state = .done then .idle else s.state := rfl
@[simp] theorem releaseReturn_status : (releaseReturn s).status = s.status := rfl
@[simp] theorem releaseReturn_payloadLen : (releaseReturn s).payloadLen = s.payloadLen := rfl
@[simp] theorem releaseReturn_res0 : (releaseReturn s).res0 = s.res0 := rfl
@[simp] theorem releaseReturn_len : (releaseReturn s).len = s.len := rfl
@[simp] theorem releaseReturn_cap : (releaseReturn s).cap = s.cap := rfl
@[simp] theorem releaseReturn_grow : (releaseReturn s).grow = s.grow := rfl
@[simp] theorem releaseReturn_tok : (releaseReturn s).tok = s.tok := rfl
@[simp] theorem releaseReturn_held : (releaseReturn s).held = s.held := rfl
@[simp] theorem releaseReturn_cur : (releaseReturn s).cur = s.cur := rfl
@[simp] theorem releaseReturn_inLen : (releaseReturn s).inLen = s.inLen := rfl
@[simp] theorem releaseReturn_ch : (releaseReturn s).ch = s.ch := rfl
@[simp] theorem releaseReturn_t : (releaseReturn s).t = s.t := rfl
@[simp] theorem releaseReturn_k : (releaseReturn s).k = s.k := rfl
@[simp] theorem releaseReturn_count : (releaseReturn s).count = s.count := rfl
@[simp] theorem releaseReturn_bi : (releaseReturn s).bi = s.bi := rfl
@[simp] theorem releaseReturn_r : (releaseReturn s).r = s.r := rfl
@[simp] theorem releaseReturn_prev : (releaseReturn s).prev = s.prev := rfl
@[simp] theorem releaseReturn_prevValid : (releaseReturn s).prevValid = s.prevValid := rfl
@[simp] theorem releaseReturn_j : (releaseReturn s).j = s.j := rfl
@[simp] theorem releaseReturn_acc : (releaseReturn s).acc = s.acc := rfl
@[simp] theorem releaseReturn_bnum : (releaseReturn s).bnum = s.bnum := rfl
@[simp] theorem releaseReturn_pad : (releaseReturn s).pad = s.pad := rfl
@[simp] theorem releaseReturn_temp : (releaseReturn s).temp = s.temp := rfl
@[simp] theorem releaseReturn_pi : (releaseReturn s).pi = s.pi := rfl
@[simp] theorem releaseReturn_out : (releaseReturn s).out = s.out := rfl
@[simp] theorem releaseReturn_inp : (releaseReturn s).inp = s.inp := rfl
@[simp] theorem releaseReturn_inputs : (releaseReturn s).inputs = s.inputs := rfl
@[simp] theorem releaseReturn_hostData : (releaseReturn s).hostData = s.hostData := rfl
@[simp] theorem releaseReturn_fresh : (releaseReturn s).fresh = s.fresh := rfl

/-! ### `setRes0` -/

@[simp] theorem setRes0_arg0 (v : Word) : (setRes0 v s).arg0 = s.arg0 := rfl
@[simp] theorem setRes0_state (v : Word) : (setRes0 v s).state = s.state := rfl
@[simp] theorem setRes0_status (v : Word) : (setRes0 v s).status = s.status := rfl
@[simp] theorem setRes0_payloadLen (v : Word) : (setRes0 v s).payloadLen = s.payloadLen := rfl
@[simp] theorem setRes0_res0 (v : Word) : (setRes0 v s).res0 = v := rfl
@[simp] theorem setRes0_len (v : Word) : (setRes0 v s).len = s.len := rfl
@[simp] theorem setRes0_cap (v : Word) : (setRes0 v s).cap = s.cap := rfl
@[simp] theorem setRes0_grow (v : Word) : (setRes0 v s).grow = s.grow := rfl
@[simp] theorem setRes0_tok (v : Word) : (setRes0 v s).tok = s.tok := rfl
@[simp] theorem setRes0_held (v : Word) : (setRes0 v s).held = s.held := rfl
@[simp] theorem setRes0_cur (v : Word) : (setRes0 v s).cur = s.cur := rfl
@[simp] theorem setRes0_inLen (v : Word) : (setRes0 v s).inLen = s.inLen := rfl
@[simp] theorem setRes0_ch (v : Word) : (setRes0 v s).ch = s.ch := rfl
@[simp] theorem setRes0_t (v : Word) : (setRes0 v s).t = s.t := rfl
@[simp] theorem setRes0_k (v : Word) : (setRes0 v s).k = s.k := rfl
@[simp] theorem setRes0_count (v : Word) : (setRes0 v s).count = s.count := rfl
@[simp] theorem setRes0_bi (v : Word) : (setRes0 v s).bi = s.bi := rfl
@[simp] theorem setRes0_r (v : Word) : (setRes0 v s).r = s.r := rfl
@[simp] theorem setRes0_prev (v : Word) : (setRes0 v s).prev = s.prev := rfl
@[simp] theorem setRes0_prevValid (v : Word) : (setRes0 v s).prevValid = s.prevValid := rfl
@[simp] theorem setRes0_j (v : Word) : (setRes0 v s).j = s.j := rfl
@[simp] theorem setRes0_acc (v : Word) : (setRes0 v s).acc = s.acc := rfl
@[simp] theorem setRes0_bnum (v : Word) : (setRes0 v s).bnum = s.bnum := rfl
@[simp] theorem setRes0_pad (v : Word) : (setRes0 v s).pad = s.pad := rfl
@[simp] theorem setRes0_temp (v : Word) : (setRes0 v s).temp = s.temp := rfl
@[simp] theorem setRes0_pi (v : Word) : (setRes0 v s).pi = s.pi := rfl
@[simp] theorem setRes0_out (v : Word) : (setRes0 v s).out = s.out := rfl
@[simp] theorem setRes0_inp (v : Word) : (setRes0 v s).inp = s.inp := rfl
@[simp] theorem setRes0_inputs (v : Word) : (setRes0 v s).inputs = s.inputs := rfl
@[simp] theorem setRes0_hostData (v : Word) : (setRes0 v s).hostData = s.hostData := rfl
@[simp] theorem setRes0_fresh (v : Word) : (setRes0 v s).fresh = s.fresh := rfl

/-! ### `bufNew` -/

@[simp] theorem bufNew_arg0 : (bufNew s).arg0 = s.arg0 := rfl
@[simp] theorem bufNew_state : (bufNew s).state = s.state := rfl
@[simp] theorem bufNew_status : (bufNew s).status = s.status := rfl
@[simp] theorem bufNew_payloadLen : (bufNew s).payloadLen = s.payloadLen := rfl
@[simp] theorem bufNew_res0 : (bufNew s).res0 = s.res0 := rfl
@[simp] theorem bufNew_len : (bufNew s).len = 0 := rfl
@[simp] theorem bufNew_cap : (bufNew s).cap = s.cap := rfl
@[simp] theorem bufNew_grow : (bufNew s).grow = 0 := rfl
@[simp] theorem bufNew_tok : (bufNew s).tok = s.tok := rfl
@[simp] theorem bufNew_held : (bufNew s).held = s.held := rfl
@[simp] theorem bufNew_cur : (bufNew s).cur = s.cur := rfl
@[simp] theorem bufNew_inLen : (bufNew s).inLen = s.inLen := rfl
@[simp] theorem bufNew_ch : (bufNew s).ch = s.ch := rfl
@[simp] theorem bufNew_t : (bufNew s).t = s.t := rfl
@[simp] theorem bufNew_k : (bufNew s).k = s.k := rfl
@[simp] theorem bufNew_count : (bufNew s).count = s.count := rfl
@[simp] theorem bufNew_bi : (bufNew s).bi = s.bi := rfl
@[simp] theorem bufNew_r : (bufNew s).r = s.r := rfl
@[simp] theorem bufNew_prev : (bufNew s).prev = s.prev := rfl
@[simp] theorem bufNew_prevValid : (bufNew s).prevValid = s.prevValid := rfl
@[simp] theorem bufNew_j : (bufNew s).j = s.j := rfl
@[simp] theorem bufNew_acc : (bufNew s).acc = s.acc := rfl
@[simp] theorem bufNew_bnum : (bufNew s).bnum = s.bnum := rfl
@[simp] theorem bufNew_pad : (bufNew s).pad = s.pad := rfl
@[simp] theorem bufNew_temp : (bufNew s).temp = s.temp := rfl
@[simp] theorem bufNew_pi : (bufNew s).pi = s.pi := rfl
@[simp] theorem bufNew_out : (bufNew s).out = [] := rfl
@[simp] theorem bufNew_inp : (bufNew s).inp = s.inp := rfl
@[simp] theorem bufNew_inputs : (bufNew s).inputs = s.inputs := rfl
@[simp] theorem bufNew_hostData : (bufNew s).hostData = s.hostData := rfl
@[simp] theorem bufNew_fresh : (bufNew s).fresh = s.fresh := rfl

/-! ### `startTransform` -/

@[simp] theorem startTransform_arg0 : (startTransform s).arg0 = s.arg0 := rfl
@[simp] theorem startTransform_state : (startTransform s).state = s.state := rfl
@[simp] theorem startTransform_status : (startTransform s).status = s.status := rfl
@[simp] theorem startTransform_payloadLen : (startTransform s).payloadLen = s.payloadLen := rfl
@[simp] theorem startTransform_res0 : (startTransform s).res0 = 0 := rfl
@[simp] theorem startTransform_len : (startTransform s).len = 0 := rfl
@[simp] theorem startTransform_cap : (startTransform s).cap = s.cap := rfl
@[simp] theorem startTransform_grow : (startTransform s).grow = 0 := rfl
@[simp] theorem startTransform_tok : (startTransform s).tok = s.tok := rfl
@[simp] theorem startTransform_held : (startTransform s).held = s.held := rfl
@[simp] theorem startTransform_cur : (startTransform s).cur = 0 := rfl
@[simp] theorem startTransform_inLen : (startTransform s).inLen = s.arg0 := rfl
@[simp] theorem startTransform_ch : (startTransform s).ch = s.ch := rfl
@[simp] theorem startTransform_t : (startTransform s).t = s.t := rfl
@[simp] theorem startTransform_k : (startTransform s).k = s.k := rfl
@[simp] theorem startTransform_count : (startTransform s).count = s.count := rfl
@[simp] theorem startTransform_bi : (startTransform s).bi = s.bi := rfl
@[simp] theorem startTransform_r : (startTransform s).r = s.r := rfl
@[simp] theorem startTransform_prev : (startTransform s).prev = s.prev := rfl
@[simp] theorem startTransform_prevValid : (startTransform s).prevValid = s.prevValid := rfl
@[simp] theorem startTransform_j : (startTransform s).j = s.j := rfl
@[simp] theorem startTransform_acc : (startTransform s).acc = s.acc := rfl
@[simp] theorem startTransform_bnum : (startTransform s).bnum = s.bnum := rfl
@[simp] theorem startTransform_pad : (startTransform s).pad = s.pad := rfl
@[simp] theorem startTransform_temp : (startTransform s).temp = s.temp := rfl
@[simp] theorem startTransform_pi : (startTransform s).pi = s.pi := rfl
@[simp] theorem startTransform_out : (startTransform s).out = [] := rfl
@[simp] theorem startTransform_inp : (startTransform s).inp = s.inp := rfl
@[simp] theorem startTransform_inputs : (startTransform s).inputs = s.inputs := rfl
@[simp] theorem startTransform_hostData : (startTransform s).hostData = s.hostData := rfl
@[simp] theorem startTransform_fresh : (startTransform s).fresh = s.fresh := rfl

/-! ### `scrambleTok` -/

@[simp] theorem scrambleTok_arg0 : (scrambleTok s).arg0 = s.arg0 := rfl
@[simp] theorem scrambleTok_state : (scrambleTok s).state = s.state := rfl
@[simp] theorem scrambleTok_status : (scrambleTok s).status = s.status := rfl
@[simp] theorem scrambleTok_payloadLen : (scrambleTok s).payloadLen = s.payloadLen := rfl
@[simp] theorem scrambleTok_res0 : (scrambleTok s).res0 = s.res0 := rfl
@[simp] theorem scrambleTok_len : (scrambleTok s).len = s.len := rfl
@[simp] theorem scrambleTok_cap : (scrambleTok s).cap = s.cap := rfl
@[simp] theorem scrambleTok_grow : (scrambleTok s).grow = s.grow := rfl
@[simp] theorem scrambleTok_tok : (scrambleTok s).tok = freeTok s.fresh := rfl
@[simp] theorem scrambleTok_held : (scrambleTok s).held = s.held := rfl
@[simp] theorem scrambleTok_cur : (scrambleTok s).cur = s.cur := rfl
@[simp] theorem scrambleTok_inLen : (scrambleTok s).inLen = s.inLen := rfl
@[simp] theorem scrambleTok_ch : (scrambleTok s).ch = s.ch := rfl
@[simp] theorem scrambleTok_t : (scrambleTok s).t = s.t := rfl
@[simp] theorem scrambleTok_k : (scrambleTok s).k = s.k := rfl
@[simp] theorem scrambleTok_count : (scrambleTok s).count = s.count := rfl
@[simp] theorem scrambleTok_bi : (scrambleTok s).bi = s.bi := rfl
@[simp] theorem scrambleTok_r : (scrambleTok s).r = s.r := rfl
@[simp] theorem scrambleTok_prev : (scrambleTok s).prev = s.prev := rfl
@[simp] theorem scrambleTok_prevValid : (scrambleTok s).prevValid = s.prevValid := rfl
@[simp] theorem scrambleTok_j : (scrambleTok s).j = s.j := rfl
@[simp] theorem scrambleTok_acc : (scrambleTok s).acc = s.acc := rfl
@[simp] theorem scrambleTok_bnum : (scrambleTok s).bnum = s.bnum := rfl
@[simp] theorem scrambleTok_pad : (scrambleTok s).pad = s.pad := rfl
@[simp] theorem scrambleTok_temp : (scrambleTok s).temp = s.temp := rfl
@[simp] theorem scrambleTok_pi : (scrambleTok s).pi = s.pi := rfl
@[simp] theorem scrambleTok_out : (scrambleTok s).out = s.out := rfl
@[simp] theorem scrambleTok_inp : (scrambleTok s).inp = s.inp := rfl
@[simp] theorem scrambleTok_inputs : (scrambleTok s).inputs = s.inputs := rfl
@[simp] theorem scrambleTok_hostData : (scrambleTok s).hostData = s.hostData := rfl
@[simp] theorem scrambleTok_fresh : (scrambleTok s).fresh = s.fresh + 16 := rfl

/-! ### `storeCell` -/

@[simp] theorem storeCell_arg0 (v : Cell) : (storeCell v s).arg0 = s.arg0 := rfl
@[simp] theorem storeCell_state (v : Cell) : (storeCell v s).state = s.state := rfl
@[simp] theorem storeCell_status (v : Cell) : (storeCell v s).status = s.status := rfl
@[simp] theorem storeCell_payloadLen (v : Cell) : (storeCell v s).payloadLen = s.payloadLen := rfl
@[simp] theorem storeCell_res0 (v : Cell) : (storeCell v s).res0 = s.res0 := rfl
@[simp] theorem storeCell_len (v : Cell) : (storeCell v s).len = s.len + 1 := rfl
@[simp] theorem storeCell_cap (v : Cell) : (storeCell v s).cap = s.cap := rfl
@[simp] theorem storeCell_grow (v : Cell) : (storeCell v s).grow = s.grow := rfl
@[simp] theorem storeCell_tok (v : Cell) : (storeCell v s).tok = s.tok := rfl
@[simp] theorem storeCell_held (v : Cell) : (storeCell v s).held = s.held := rfl
@[simp] theorem storeCell_cur (v : Cell) : (storeCell v s).cur = s.cur := rfl
@[simp] theorem storeCell_inLen (v : Cell) : (storeCell v s).inLen = s.inLen := rfl
@[simp] theorem storeCell_ch (v : Cell) : (storeCell v s).ch = s.ch := rfl
@[simp] theorem storeCell_t (v : Cell) : (storeCell v s).t = s.t := rfl
@[simp] theorem storeCell_k (v : Cell) : (storeCell v s).k = s.k := rfl
@[simp] theorem storeCell_count (v : Cell) : (storeCell v s).count = s.count := rfl
@[simp] theorem storeCell_bi (v : Cell) : (storeCell v s).bi = s.bi := rfl
@[simp] theorem storeCell_r (v : Cell) : (storeCell v s).r = s.r := rfl
@[simp] theorem storeCell_prev (v : Cell) : (storeCell v s).prev = s.prev := rfl
@[simp] theorem storeCell_prevValid (v : Cell) : (storeCell v s).prevValid = s.prevValid := rfl
@[simp] theorem storeCell_j (v : Cell) : (storeCell v s).j = s.j := rfl
@[simp] theorem storeCell_acc (v : Cell) : (storeCell v s).acc = s.acc := rfl
@[simp] theorem storeCell_bnum (v : Cell) : (storeCell v s).bnum = s.bnum := rfl
@[simp] theorem storeCell_pad (v : Cell) : (storeCell v s).pad = s.pad := rfl
@[simp] theorem storeCell_temp (v : Cell) : (storeCell v s).temp = s.temp := rfl
@[simp] theorem storeCell_pi (v : Cell) : (storeCell v s).pi = s.pi := rfl
@[simp] theorem storeCell_out (v : Cell) : (storeCell v s).out = putCell s.out s.len.toNat v := rfl
@[simp] theorem storeCell_inp (v : Cell) : (storeCell v s).inp = s.inp := rfl
@[simp] theorem storeCell_inputs (v : Cell) : (storeCell v s).inputs = s.inputs := rfl
@[simp] theorem storeCell_hostData (v : Cell) : (storeCell v s).hostData = s.hostData := rfl
@[simp] theorem storeCell_fresh (v : Cell) : (storeCell v s).fresh = s.fresh := rfl

/-! ### `tokSet` -/

@[simp] theorem tokSet_arg0 (n : Nat) (v : Symbol) : (tokSet n v s).arg0 = s.arg0 := rfl
@[simp] theorem tokSet_state (n : Nat) (v : Symbol) : (tokSet n v s).state = s.state := rfl
@[simp] theorem tokSet_status (n : Nat) (v : Symbol) : (tokSet n v s).status = s.status := rfl
@[simp] theorem tokSet_payloadLen (n : Nat) (v : Symbol) : (tokSet n v s).payloadLen = s.payloadLen := rfl
@[simp] theorem tokSet_res0 (n : Nat) (v : Symbol) : (tokSet n v s).res0 = s.res0 := rfl
@[simp] theorem tokSet_len (n : Nat) (v : Symbol) : (tokSet n v s).len = s.len := rfl
@[simp] theorem tokSet_cap (n : Nat) (v : Symbol) : (tokSet n v s).cap = s.cap := rfl
@[simp] theorem tokSet_grow (n : Nat) (v : Symbol) : (tokSet n v s).grow = s.grow := rfl
@[simp] theorem tokSet_tok (n : Nat) (v : Symbol) : (tokSet n v s).tok = s.tok.setIfInBounds n v := rfl
@[simp] theorem tokSet_held (n : Nat) (v : Symbol) : (tokSet n v s).held = s.held := rfl
@[simp] theorem tokSet_cur (n : Nat) (v : Symbol) : (tokSet n v s).cur = s.cur := rfl
@[simp] theorem tokSet_inLen (n : Nat) (v : Symbol) : (tokSet n v s).inLen = s.inLen := rfl
@[simp] theorem tokSet_ch (n : Nat) (v : Symbol) : (tokSet n v s).ch = s.ch := rfl
@[simp] theorem tokSet_t (n : Nat) (v : Symbol) : (tokSet n v s).t = s.t := rfl
@[simp] theorem tokSet_k (n : Nat) (v : Symbol) : (tokSet n v s).k = s.k := rfl
@[simp] theorem tokSet_count (n : Nat) (v : Symbol) : (tokSet n v s).count = s.count := rfl
@[simp] theorem tokSet_bi (n : Nat) (v : Symbol) : (tokSet n v s).bi = s.bi := rfl
@[simp] theorem tokSet_r (n : Nat) (v : Symbol) : (tokSet n v s).r = s.r := rfl
@[simp] theorem tokSet_prev (n : Nat) (v : Symbol) : (tokSet n v s).prev = s.prev := rfl
@[simp] theorem tokSet_prevValid (n : Nat) (v : Symbol) : (tokSet n v s).prevValid = s.prevValid := rfl
@[simp] theorem tokSet_j (n : Nat) (v : Symbol) : (tokSet n v s).j = s.j := rfl
@[simp] theorem tokSet_acc (n : Nat) (v : Symbol) : (tokSet n v s).acc = s.acc := rfl
@[simp] theorem tokSet_bnum (n : Nat) (v : Symbol) : (tokSet n v s).bnum = s.bnum := rfl
@[simp] theorem tokSet_pad (n : Nat) (v : Symbol) : (tokSet n v s).pad = s.pad := rfl
@[simp] theorem tokSet_temp (n : Nat) (v : Symbol) : (tokSet n v s).temp = s.temp := rfl
@[simp] theorem tokSet_pi (n : Nat) (v : Symbol) : (tokSet n v s).pi = s.pi := rfl
@[simp] theorem tokSet_out (n : Nat) (v : Symbol) : (tokSet n v s).out = s.out := rfl
@[simp] theorem tokSet_inp (n : Nat) (v : Symbol) : (tokSet n v s).inp = s.inp := rfl
@[simp] theorem tokSet_inputs (n : Nat) (v : Symbol) : (tokSet n v s).inputs = s.inputs := rfl
@[simp] theorem tokSet_hostData (n : Nat) (v : Symbol) : (tokSet n v s).hostData = s.hostData := rfl
@[simp] theorem tokSet_fresh (n : Nat) (v : Symbol) : (tokSet n v s).fresh = s.fresh := rfl

/-! ### `pushTok` -/

@[simp] theorem pushTok_arg0 (v : Symbol) : (pushTok v s).arg0 = s.arg0 := rfl
@[simp] theorem pushTok_state (v : Symbol) : (pushTok v s).state = s.state := rfl
@[simp] theorem pushTok_status (v : Symbol) : (pushTok v s).status = s.status := rfl
@[simp] theorem pushTok_payloadLen (v : Symbol) : (pushTok v s).payloadLen = s.payloadLen := rfl
@[simp] theorem pushTok_res0 (v : Symbol) : (pushTok v s).res0 = s.res0 := rfl
@[simp] theorem pushTok_len (v : Symbol) : (pushTok v s).len = s.len := rfl
@[simp] theorem pushTok_cap (v : Symbol) : (pushTok v s).cap = s.cap := rfl
@[simp] theorem pushTok_grow (v : Symbol) : (pushTok v s).grow = s.grow := rfl
@[simp] theorem pushTok_tok (v : Symbol) : (pushTok v s).tok = s.tok.setIfInBounds s.k.toNat v := rfl
@[simp] theorem pushTok_held (v : Symbol) : (pushTok v s).held = s.held := rfl
@[simp] theorem pushTok_cur (v : Symbol) : (pushTok v s).cur = s.cur := rfl
@[simp] theorem pushTok_inLen (v : Symbol) : (pushTok v s).inLen = s.inLen := rfl
@[simp] theorem pushTok_ch (v : Symbol) : (pushTok v s).ch = s.ch := rfl
@[simp] theorem pushTok_t (v : Symbol) : (pushTok v s).t = s.t := rfl
@[simp] theorem pushTok_k (v : Symbol) : (pushTok v s).k = s.k + 1 := rfl
@[simp] theorem pushTok_count (v : Symbol) : (pushTok v s).count = s.count := rfl
@[simp] theorem pushTok_bi (v : Symbol) : (pushTok v s).bi = s.bi := rfl
@[simp] theorem pushTok_r (v : Symbol) : (pushTok v s).r = s.r := rfl
@[simp] theorem pushTok_prev (v : Symbol) : (pushTok v s).prev = s.prev := rfl
@[simp] theorem pushTok_prevValid (v : Symbol) : (pushTok v s).prevValid = s.prevValid := rfl
@[simp] theorem pushTok_j (v : Symbol) : (pushTok v s).j = s.j := rfl
@[simp] theorem pushTok_acc (v : Symbol) : (pushTok v s).acc = s.acc := rfl
@[simp] theorem pushTok_bnum (v : Symbol) : (pushTok v s).bnum = s.bnum := rfl
@[simp] theorem pushTok_pad (v : Symbol) : (pushTok v s).pad = s.pad := rfl
@[simp] theorem pushTok_temp (v : Symbol) : (pushTok v s).temp = s.temp := rfl
@[simp] theorem pushTok_pi (v : Symbol) : (pushTok v s).pi = s.pi := rfl
@[simp] theorem pushTok_out (v : Symbol) : (pushTok v s).out = s.out := rfl
@[simp] theorem pushTok_inp (v : Symbol) : (pushTok v s).inp = s.inp := rfl
@[simp] theorem pushTok_inputs (v : Symbol) : (pushTok v s).inputs = s.inputs := rfl
@[simp] theorem pushTok_hostData (v : Symbol) : (pushTok v s).hostData = s.hostData := rfl
@[simp] theorem pushTok_fresh (v : Symbol) : (pushTok v s).fresh = s.fresh := rfl

/-! ### `advance` -/

@[simp] theorem advance_arg0 : (advance s).arg0 = s.arg0 := rfl
@[simp] theorem advance_state : (advance s).state = s.state := rfl
@[simp] theorem advance_status : (advance s).status = s.status := rfl
@[simp] theorem advance_payloadLen : (advance s).payloadLen = s.payloadLen := rfl
@[simp] theorem advance_res0 : (advance s).res0 = s.res0 := rfl
@[simp] theorem advance_len : (advance s).len = s.len := rfl
@[simp] theorem advance_cap : (advance s).cap = s.cap := rfl
@[simp] theorem advance_grow : (advance s).grow = s.grow := rfl
@[simp] theorem advance_tok : (advance s).tok = s.tok := rfl
@[simp] theorem advance_held : (advance s).held = s.held := rfl
@[simp] theorem advance_cur : (advance s).cur = s.cur + 1 := rfl
@[simp] theorem advance_inLen : (advance s).inLen = s.inLen := rfl
@[simp] theorem advance_ch : (advance s).ch = s.ch := rfl
@[simp] theorem advance_t : (advance s).t = s.t := rfl
@[simp] theorem advance_k : (advance s).k = s.k := rfl
@[simp] theorem advance_count : (advance s).count = s.count := rfl
@[simp] theorem advance_bi : (advance s).bi = s.bi := rfl
@[simp] theorem advance_r : (advance s).r = s.r := rfl
@[simp] theorem advance_prev : (advance s).prev = s.prev := rfl
@[simp] theorem advance_prevValid : (advance s).prevValid = s.prevValid := rfl
@[simp] theorem advance_j : (advance s).j = s.j := rfl
@[simp] theorem advance_acc : (advance s).acc = s.acc := rfl
@[simp] theorem advance_bnum : (advance s).bnum = s.bnum := rfl
@[simp] theorem advance_pad : (advance s).pad = s.pad := rfl
@[simp] theorem advance_temp : (advance s).temp = s.temp := rfl
@[simp] theorem advance_pi : (advance s).pi = s.pi := rfl
@[simp] theorem advance_out : (advance s).out = s.out := rfl
@[simp] theorem advance_inp : (advance s).inp = s.inp := rfl
@[simp] theorem advance_inputs : (advance s).inputs = s.inputs := rfl
@[simp] theorem advance_hostData : (advance s).hostData = s.hostData := rfl
@[simp] theorem advance_fresh : (advance s).fresh = s.fresh := rfl

/-! ### `loadNibble` -/

@[simp] theorem loadNibble_arg0 : (loadNibble s).arg0 = s.arg0 := rfl
@[simp] theorem loadNibble_state : (loadNibble s).state = s.state := rfl
@[simp] theorem loadNibble_status : (loadNibble s).status = s.status := rfl
@[simp] theorem loadNibble_payloadLen : (loadNibble s).payloadLen = s.payloadLen := rfl
@[simp] theorem loadNibble_res0 : (loadNibble s).res0 = s.res0 := rfl
@[simp] theorem loadNibble_len : (loadNibble s).len = s.len := rfl
@[simp] theorem loadNibble_cap : (loadNibble s).cap = s.cap := rfl
@[simp] theorem loadNibble_grow : (loadNibble s).grow = s.grow := rfl
@[simp] theorem loadNibble_tok : (loadNibble s).tok = s.tok := rfl
@[simp] theorem loadNibble_held : (loadNibble s).held = s.held := rfl
@[simp] theorem loadNibble_cur : (loadNibble s).cur = s.cur := rfl
@[simp] theorem loadNibble_inLen : (loadNibble s).inLen = s.inLen := rfl
@[simp] theorem loadNibble_ch : (loadNibble s).ch = s.ch := rfl
@[simp] theorem loadNibble_t : (loadNibble s).t = s.ch.extractLsb' 0 4 := rfl
@[simp] theorem loadNibble_k : (loadNibble s).k = s.k := rfl
@[simp] theorem loadNibble_count : (loadNibble s).count = s.count := rfl
@[simp] theorem loadNibble_bi : (loadNibble s).bi = s.bi := rfl
@[simp] theorem loadNibble_r : (loadNibble s).r = s.r := rfl
@[simp] theorem loadNibble_prev : (loadNibble s).prev = s.prev := rfl
@[simp] theorem loadNibble_prevValid : (loadNibble s).prevValid = s.prevValid := rfl
@[simp] theorem loadNibble_j : (loadNibble s).j = s.j := rfl
@[simp] theorem loadNibble_acc : (loadNibble s).acc = s.acc := rfl
@[simp] theorem loadNibble_bnum : (loadNibble s).bnum = s.bnum := rfl
@[simp] theorem loadNibble_pad : (loadNibble s).pad = s.pad := rfl
@[simp] theorem loadNibble_temp : (loadNibble s).temp = s.temp := rfl
@[simp] theorem loadNibble_pi : (loadNibble s).pi = s.pi := rfl
@[simp] theorem loadNibble_out : (loadNibble s).out = s.out := rfl
@[simp] theorem loadNibble_inp : (loadNibble s).inp = s.inp := rfl
@[simp] theorem loadNibble_inputs : (loadNibble s).inputs = s.inputs := rfl
@[simp] theorem loadNibble_hostData : (loadNibble s).hostData = s.hostData := rfl
@[simp] theorem loadNibble_fresh : (loadNibble s).fresh = s.fresh := rfl

/-! ### `dropNibble` -/

@[simp] theorem dropNibble_arg0 : (dropNibble s).arg0 = s.arg0 := rfl
@[simp] theorem dropNibble_state : (dropNibble s).state = s.state := rfl
@[simp] theorem dropNibble_status : (dropNibble s).status = s.status := rfl
@[simp] theorem dropNibble_payloadLen : (dropNibble s).payloadLen = s.payloadLen := rfl
@[simp] theorem dropNibble_res0 : (dropNibble s).res0 = s.res0 := rfl
@[simp] theorem dropNibble_len : (dropNibble s).len = s.len := rfl
@[simp] theorem dropNibble_cap : (dropNibble s).cap = s.cap := rfl
@[simp] theorem dropNibble_grow : (dropNibble s).grow = s.grow := rfl
@[simp] theorem dropNibble_tok : (dropNibble s).tok = s.tok := rfl
@[simp] theorem dropNibble_held : (dropNibble s).held = s.held := rfl
@[simp] theorem dropNibble_cur : (dropNibble s).cur = s.cur := rfl
@[simp] theorem dropNibble_inLen : (dropNibble s).inLen = s.inLen := rfl
@[simp] theorem dropNibble_ch : (dropNibble s).ch = s.ch >>> 4 := rfl
@[simp] theorem dropNibble_t : (dropNibble s).t = s.t := rfl
@[simp] theorem dropNibble_k : (dropNibble s).k = s.k := rfl
@[simp] theorem dropNibble_count : (dropNibble s).count = s.count := rfl
@[simp] theorem dropNibble_bi : (dropNibble s).bi = s.bi := rfl
@[simp] theorem dropNibble_r : (dropNibble s).r = s.r := rfl
@[simp] theorem dropNibble_prev : (dropNibble s).prev = s.prev := rfl
@[simp] theorem dropNibble_prevValid : (dropNibble s).prevValid = s.prevValid := rfl
@[simp] theorem dropNibble_j : (dropNibble s).j = s.j := rfl
@[simp] theorem dropNibble_acc : (dropNibble s).acc = s.acc := rfl
@[simp] theorem dropNibble_bnum : (dropNibble s).bnum = s.bnum := rfl
@[simp] theorem dropNibble_pad : (dropNibble s).pad = s.pad := rfl
@[simp] theorem dropNibble_temp : (dropNibble s).temp = s.temp := rfl
@[simp] theorem dropNibble_pi : (dropNibble s).pi = s.pi := rfl
@[simp] theorem dropNibble_out : (dropNibble s).out = s.out := rfl
@[simp] theorem dropNibble_inp : (dropNibble s).inp = s.inp := rfl
@[simp] theorem dropNibble_inputs : (dropNibble s).inputs = s.inputs := rfl
@[simp] theorem dropNibble_hostData : (dropNibble s).hostData = s.hostData := rfl
@[simp] theorem dropNibble_fresh : (dropNibble s).fresh = s.fresh := rfl

/-! ### `loadChar` -/

@[simp] theorem loadChar_arg0 : (loadChar s).arg0 = s.arg0 := rfl
@[simp] theorem loadChar_state : (loadChar s).state = s.state := rfl
@[simp] theorem loadChar_status : (loadChar s).status = s.status := rfl
@[simp] theorem loadChar_payloadLen : (loadChar s).payloadLen = s.payloadLen := rfl
@[simp] theorem loadChar_res0 : (loadChar s).res0 = s.res0 := rfl
@[simp] theorem loadChar_len : (loadChar s).len = s.len := rfl
@[simp] theorem loadChar_cap : (loadChar s).cap = s.cap := rfl
@[simp] theorem loadChar_grow : (loadChar s).grow = s.grow := rfl
@[simp] theorem loadChar_tok : (loadChar s).tok = s.tok := rfl
@[simp] theorem loadChar_held : (loadChar s).held = s.held := rfl
@[simp] theorem loadChar_cur : (loadChar s).cur = s.cur + 1 := rfl
@[simp] theorem loadChar_inLen : (loadChar s).inLen = s.inLen := rfl
@[simp] theorem loadChar_ch : (loadChar s).ch = nextCell s := rfl
@[simp] theorem loadChar_t : (loadChar s).t = s.t := rfl
@[simp] theorem loadChar_k : (loadChar s).k = s.k := rfl
@[simp] theorem loadChar_count : (loadChar s).count = s.count := rfl
@[simp] theorem loadChar_bi : (loadChar s).bi = s.bi := rfl
@[simp] theorem loadChar_r : (loadChar s).r = s.r := rfl
@[simp] theorem loadChar_prev : (loadChar s).prev = s.prev := rfl
@[simp] theorem loadChar_prevValid : (loadChar s).prevValid = s.prevValid := rfl
@[simp] theorem loadChar_j : (loadChar s).j = s.j := rfl
@[simp] theorem loadChar_acc : (loadChar s).acc = s.acc := rfl
@[simp] theorem loadChar_bnum : (loadChar s).bnum = s.bnum := rfl
@[simp] theorem loadChar_pad : (loadChar s).pad = s.pad := rfl
@[simp] theorem loadChar_temp : (loadChar s).temp = s.temp := rfl
@[simp] theorem loadChar_pi : (loadChar s).pi = s.pi := rfl
@[simp] theorem loadChar_out : (loadChar s).out = s.out := rfl
@[simp] theorem loadChar_inp : (loadChar s).inp = s.inp := rfl
@[simp] theorem loadChar_inputs : (loadChar s).inputs = s.inputs := rfl
@[simp] theorem loadChar_hostData : (loadChar s).hostData = s.hostData := rfl
@[simp] theorem loadChar_fresh : (loadChar s).fresh = s.fresh := rfl

/-! ### `clearHalf` -/

@[simp] theorem clearHalf_arg0 : (clearHalf s).arg0 = s.arg0 := rfl
@[simp] theorem clearHalf_state : (clearHalf s).state = s.state := rfl
@[simp] theorem clearHalf_status : (clearHalf s).status = s.status := rfl
@[simp] theorem clearHalf_payloadLen : (clearHalf s).payloadLen = s.payloadLen := rfl
@[simp] theorem clearHalf_res0 : (clearHalf s).res0 = s.res0 := rfl
@[simp] theorem clearHalf_len : (clearHalf s).len = s.len := rfl
@[simp] theorem clearHalf_cap : (clearHalf s).cap = s.cap := rfl
@[simp] theorem clearHalf_grow : (clearHalf s).grow = s.grow := rfl
@[simp] theorem clearHalf_tok : (clearHalf s).tok = s.tok := rfl
@[simp] theorem clearHalf_held : (clearHalf s).held = s.held := rfl
@[simp] theorem clearHalf_cur : (clearHalf s).cur = s.cur := rfl
@[simp] theorem clearHalf_inLen : (clearHalf s).inLen = s.inLen := rfl
@[simp] theorem clearHalf_ch : (clearHalf s).ch = s.ch := rfl
@[simp] theorem clearHalf_t : (clearHalf s).t = s.t := rfl
@[simp] theorem clearHalf_k : (clearHalf s).k = s.k := rfl
@[simp] theorem clearHalf_count : (clearHalf s).count = s.count := rfl
@[simp] theorem clearHalf_bi : (clearHalf s).bi = s.bi := rfl
@[simp] theorem clearHalf_r : (clearHalf s).r = s.r := rfl
@[simp] theorem clearHalf_prev : (clearHalf s).prev = s.prev := rfl
@[simp] theorem clearHalf_prevValid : (clearHalf s).prevValid = false := rfl
@[simp] theorem clearHalf_j : (clearHalf s).j = s.j := rfl
@[simp] theorem clearHalf_acc : (clearHalf s).acc = s.acc := rfl
@[simp] theorem clearHalf_bnum : (clearHalf s).bnum = s.bnum := rfl
@[simp] theorem clearHalf_pad : (clearHalf s).pad = s.pad := rfl
@[simp] theorem clearHalf_temp : (clearHalf s).temp = s.temp := rfl
@[simp] theorem clearHalf_pi : (clearHalf s).pi = s.pi := rfl
@[simp] theorem clearHalf_out : (clearHalf s).out = s.out := rfl
@[simp] theorem clearHalf_inp : (clearHalf s).inp = s.inp := rfl
@[simp] theorem clearHalf_inputs : (clearHalf s).inputs = s.inputs := rfl
@[simp] theorem clearHalf_hostData : (clearHalf s).hostData = s.hostData := rfl
@[simp] theorem clearHalf_fresh : (clearHalf s).fresh = s.fresh := rfl

/-! ### `deliver` -/

@[simp] theorem deliver_arg0 (v : Word) : (deliver v s).arg0 = s.arg0 := rfl
@[simp] theorem deliver_state (v : Word) : (deliver v s).state = s.state := rfl
@[simp] theorem deliver_status (v : Word) : (deliver v s).status = s.status := rfl
@[simp] theorem deliver_payloadLen (v : Word) : (deliver v s).payloadLen = s.payloadLen := rfl
@[simp] theorem deliver_res0 (v : Word) : (deliver v s).res0 = s.res0 := rfl
@[simp] theorem deliver_len (v : Word) : (deliver v s).len = s.len := rfl
@[simp] theorem deliver_cap (v : Word) : (deliver v s).cap = s.cap := rfl
@[simp] theorem deliver_grow (v : Word) : (deliver v s).grow = s.grow := rfl
@[simp] theorem deliver_tok (v : Word) : (deliver v s).tok = s.tok := rfl
@[simp] theorem deliver_held (v : Word) : (deliver v s).held = s.held := rfl
@[simp] theorem deliver_cur (v : Word) : (deliver v s).cur = s.cur := rfl
@[simp] theorem deliver_inLen (v : Word) : (deliver v s).inLen = s.inLen := rfl
@[simp] theorem deliver_ch (v : Word) : (deliver v s).ch = s.ch := rfl
@[simp] theorem deliver_t (v : Word) : (deliver v s).t = s.t := rfl
@[simp] theorem deliver_k (v : Word) : (deliver v s).k = s.k := rfl
@[simp] theorem deliver_count (v : Word) : (deliver v s).count = s.count := rfl
@[simp] theorem deliver_bi (v : Word) : (deliver v s).bi = s.bi := rfl
@[simp] theorem deliver_r (v : Word) : (deliver v s).r = s.r := rfl
@[simp] theorem deliver_prev (v : Word) : (deliver v s).prev = s.prev := rfl
@[simp] theorem deliver_prevValid (v : Word) : (deliver v s).prevValid = s.prevValid := rfl
@[simp] theorem deliver_j (v : Word) : (deliver v s).j = s.j := rfl
@[simp] theorem deliver_acc (v : Word) : (deliver v s).acc = s.acc := rfl
@[simp] theorem deliver_bnum (v : Word) : (deliver v s).bnum = s.bnum := rfl
@[simp] theorem deliver_pad (v : Word) : (deliver v s).pad = s.pad := rfl
@[simp] theorem deliver_temp (v : Word) : (deliver v s).temp = s.temp := rfl
@[simp] theorem deliver_pi (v : Word) : (deliver v s).pi = s.pi := rfl
@[simp] theorem deliver_out (v : Word) : (deliver v s).out = s.out := rfl
@[simp] theorem deliver_inp (v : Word) : (deliver v s).inp = s.inp := rfl
@[simp] theorem deliver_inputs (v : Word) : (deliver v s).inputs = s.inputs := rfl
@[simp] theorem deliver_hostData (v : Word) : (deliver v s).hostData = v := rfl
@[simp] theorem deliver_fresh (v : Word) : (deliver v s).fresh = s.fresh := rfl

/-! ### `resetEngine` -/

@[simp] theorem resetEngine_arg0 : (resetEngine s).arg0 = 0 := rfl
@[simp] theorem resetEngine_state : (resetEngine s).state = .idle := rfl
@[simp] theorem resetEngine_status : (resetEngine s).status = 0 := rfl
@[simp] theorem resetEngine_payloadLen : (resetEngine s).payloadLen = 0 := rfl
@[simp] theorem resetEngine_res0 : (resetEngine s).res0 = 0 := rfl
@[simp] theorem resetEngine_len : (resetEngine s).len = 0 := rfl
@[simp] theorem resetEngine_cap : (resetEngine s).cap = BitVec.ofNat 64 Config.bufInitCap := rfl
@[simp] theorem resetEngine_grow : (resetEngine s).grow = 0 := rfl
@[simp] theorem resetEngine_tok : (resetEngine s).tok = Vector.replicate 16 0 := rfl
@[simp] theorem resetEngine_held : (resetEngine s).held = none := rfl
@[simp] theorem resetEngine_cur : (resetEngine s).cur = 0 := rfl
@[simp] theorem resetEngine_inLen : (resetEngine s).inLen = 0 := rfl
@[simp] theorem resetEngine_ch : (resetEngine s).ch = 0 := rfl
@[simp] theorem resetEngine_t : (resetEngine s).t = 0 := rfl
@[simp] theorem resetEngine_k : (resetEngine s).k = 0 := rfl
@[simp] theorem resetEngine_count : (resetEngine s).count = 0 := rfl
@[simp] theorem resetEngine_bi : (resetEngine s).bi = 0 := rfl
@[simp] theorem resetEngine_r : (resetEngine s).r = 0 := rfl
@[simp] theorem resetEngine_prev : (resetEngine s).prev = 0 := rfl
@[simp] theorem resetEngine_prevValid : (resetEngine s).prevValid = false := rfl
@[simp] theorem resetEngine_j : (resetEngine s).j = 0 := rfl
@[simp] theorem resetEngine_acc : (resetEngine s).acc = 0 := rfl
@[simp] theorem resetEngine_bnum : (resetEngine s).bnum = 0 := rfl
@[simp] theorem resetEngine_pad : (resetEngine s).pad = 0 := rfl
@[simp] theorem resetEngine_temp : (resetEngine s).temp = 0 := rfl
@[simp] theorem resetEngine_pi : (resetEngine s).pi = 0 := rfl
@[simp] theorem resetEngine_out : (resetEngine s).out = [] := rfl
@[simp] theorem resetEngine_inp : (resetEngine s).inp = s.inp := rfl
@[simp] theorem resetEngine_inputs : (resetEngine s).inputs = s.inputs := rfl
@[simp] theorem resetEngine_hostData : (resetEngine s).hostData = s.hostData := rfl
@[simp] theorem resetEngine_fresh : (resetEngine s).fresh = s.fresh := rfl

end Sys2Proof.Machine
end

