-- ==== Sys2Proof/Laws/Memory.lean ====
section
/-! SUPPORT. The laws of a cell space: read after write, and the canonical form kept by every operation. -/

namespace Sys2Proof.Machine

@[simp] theorem cellAt_nil (a : Nat) : cellAt [] a = none := rfl

@[simp] theorem cellAt_putCell_same (m : Memory) (a : Nat) (v : Cell) : cellAt (putCell m a v) a = some v := by
  induction m with
  | nil => simp [putCell, cellAt]
  | cons x rest ih =>
    obtain ⟨b, w⟩ := x
    by_cases hlt : a < b
    · simp [putCell, cellAt, hlt]
    · by_cases heq : a = b
      · simp [putCell, cellAt, heq]
      · simp [putCell, cellAt, hlt, heq, ih]

theorem cellAt_putCell_other (m : Memory) {a i : Nat} (v : Cell) (h : i ≠ a) :
    cellAt (putCell m a v) i = cellAt m i := by
  induction m with
  | nil => simp [putCell, cellAt, h]
  | cons x rest ih =>
    obtain ⟨b, w⟩ := x
    by_cases hlt : a < b
    · simp [putCell, cellAt, hlt, h]
    · by_cases heq : a = b
      · subst heq; simp [putCell, cellAt, h]
      · simp [putCell, cellAt, hlt, heq, ih]

/-- Reading any cell after a write. -/
theorem cellAt_putCell (m : Memory) (a i : Nat) (v : Cell) :
    cellAt (putCell m a v) i = if i = a then some v else cellAt m i := by
  by_cases h : i = a
  · subst h; simp
  · simp [cellAt_putCell_other m v h, h]

theorem putCell_first (m : Memory) (a : Nat) (v : Cell) (x : Nat × Cell) (hx : x ∈ putCell m a v) :
    x.1 = a ∨ x ∈ m := by
  induction m with
  | nil => left; simp [putCell] at hx; simp [hx]
  | cons y rest ih =>
    obtain ⟨b, w⟩ := y
    by_cases hlt : a < b
    · simp [putCell, hlt] at hx
      rcases hx with rfl | rfl | hx <;> simp_all
    · by_cases heq : a = b
      · simp [putCell, heq] at hx
        rcases hx with rfl | hx <;> simp_all
      · simp [putCell, hlt, heq] at hx
        rcases hx with rfl | hx
        · simp
        · rcases ih hx with h | h <;> simp [h]

/-- A write keeps the canonical form. -/
theorem putCell_wf (m : Memory) (a : Nat) (v : Cell) (h : m.wf) : (putCell m a v).wf := by
  induction m with
  | nil => simp [putCell, Memory.wf]
  | cons y rest ih =>
    obtain ⟨b, w⟩ := y
    obtain ⟨hb, hrest⟩ := List.pairwise_cons.mp h
    by_cases hlt : a < b
    · simp only [putCell, hlt, if_true]
      refine List.pairwise_cons.mpr ⟨fun x hx => ?_, h⟩
      rcases List.mem_cons.mp hx with rfl | hx
      · exact hlt
      · exact lt_trans hlt (hb x hx)
    · by_cases heq : a = b
      · subst heq
        simp only [putCell, lt_irrefl, if_false, if_true]
        exact List.pairwise_cons.mpr ⟨hb, hrest⟩
      · simp only [putCell, hlt, heq, if_false]
        refine List.pairwise_cons.mpr ⟨fun x hx => ?_, ih hrest⟩
        rcases putCell_first rest a v x hx with h' | h'
        · show b < x.1
          omega
        · exact hb x h'

/-- A HOST write of `IN[i]` is read back, and leaves every other input cell alone. -/
theorem inCell_hostWriteIn (i a : Nat) (v : Cell) (s : State) :
    inCell (hostWriteIn i v s) a = if a = i then v else inCell s a := by
  simp only [inCell, hostWriteIn, cellAt_putCell]
  split <;> simp

/-- Storing a cell at `LEN` is read back, and leaves every other cell of `OUT` alone (R63). -/
theorem outCell_storeCell (v : Cell) (s : State) (i : Nat) :
    outCell (storeCell v s) i = if i = s.len.toNat then v else outCell s i := by
  simp only [outCell, storeCell_out, storeCell_fresh, cellAt_putCell]
  split <;> simp

/-- After `buf_new` no `OUT` cell holds a stored value (R130). -/
theorem cellAt_bufNew (s : State) (i : Nat) : cellAt (bufNew s).out i = none := rfl

end Sys2Proof.Machine
end

