-- ==== Sys2Proof/Laws/Buffer.lean ====
section
/-! SUPPORT. What the buffer functions can do (spec/40_buffer.md): one lemma for each that says it once, in terms
of the list of cells `OUT` holds. -/

namespace Sys2Proof.Machine

/-! ### Flows -/

@[simp] theorem Flow.bind_go (s : State) (g : State → Flow) : (Flow.go s).bind g = g s := rfl

@[simp] theorem Flow.bind_raise (x : Raise) (s : State) (g : State → Flow) :
    (Flow.raise x s).bind g = .raise x s := rfl

/-- A body goes on exactly where both of its parts do. -/
theorem Flow.bind_eq_go {f : Flow} {g : State → Flow} {t : State} (h : f.bind g = .go t) :
    ∃ s, f = .go s ∧ g s = .go t := by
  cases f with
  | go s => exact ⟨s, rfl, h⟩
  | raise x s => cases h

/-- A body raises in its first part or in its second. -/
theorem Flow.bind_eq_raise {f : Flow} {g : State → Flow} {x : Raise} {t : State} (h : f.bind g = .raise x t) :
    f = .raise x t ∨ ∃ s, f = .go s ∧ g s = .raise x t := by
  cases f with
  | go s => exact .inr ⟨s, rfl, h⟩
  | raise y s => exact .inl (by simpa using h)

@[simp] theorem complete_go (s : State) : complete (.go s) = .next (finish Config.stSuccess s) := rfl

@[simp] theorem complete_raise (x : Raise) (s : State) : complete (.raise x s) = .next (raiseEntry x s) := rfl

@[simp] theorem withOperand_none {α : Type} (s : State) (f : α → Flow) :
    withOperand none s f = .raise .badCommand s := rfl

@[simp] theorem withOperand_some {α : Type} (v : α) (s : State) (f : α → Flow) : withOperand (some v) s f = f v :=
  rfl

/-- A completion makes no fault and no refusal. -/
theorem complete_next (f : Flow) : ∃ t, complete f = .next t := by
  cases f <;> exact ⟨_, rfl⟩

/-! ### What `OUT` holds -/

/-- `OUT` holds the list `cs` and nothing else, and `LEN` is its length. -/
structure Holds (s : State) (cs : List Cell) : Prop where
  len : s.len.toNat = cs.length
  cells : ∀ i, cellAt s.out i = cs[i]?

/-- Only `OUT`, `LEN`, `CAP` and `GROW` differ. -/
def BufferOnly (s t : State) : Prop := t = { s with out := t.out, len := t.len, cap := t.cap, grow := t.grow }

theorem BufferOnly.refl (s : State) : BufferOnly s s := rfl

theorem BufferOnly.trans {s t u : State} (h : BufferOnly s t) (h' : BufferOnly t u) : BufferOnly s u := by
  unfold BufferOnly at *
  rw [h'.trans (congrArg (fun x : State => { x with out := u.out, len := u.len, cap := u.cap, grow := u.grow }) h)]

/-- A list read back from `OUT` by index. -/
theorem Holds.read_eq {s : State} {cs : List Cell} (h : Holds s cs) :
    (List.range cs.length).map (outCell s) = cs := by
  apply List.ext_getElem
  · simp
  · intro i h1 h2
    have hc := h.cells i
    rw [List.getElem?_eq_getElem h2] at hc
    simp [outCell, hc]

/-- What `OUT` holds is the buffer's contents. -/
theorem Holds.contents_eq {s : State} {cs : List Cell} (h : Holds s cs) : contents s = cs := by
  unfold contents
  rw [h.len]
  exact h.read_eq

/-- After a success the payload is what `OUT` holds. -/
theorem Holds.payload_eq {s : State} {cs : List Cell} (h : Holds s cs) (hp : s.payloadLen = s.len) :
    payload s = cs := by
  unfold payload
  rw [hp, h.len]
  exact h.read_eq

/-- A fresh or pooled buffer holds nothing (R130). -/
theorem bufNew_holds (s : State) : Holds (bufNew s) [] := ⟨rfl, fun _ => rfl⟩

theorem startTransform_holds (s : State) : Holds (startTransform s) [] := ⟨rfl, fun _ => rfl⟩

/-- `Holds` reads only `OUT` and `LEN`. -/
theorem Holds.congr {s t : State} {cs : List Cell} (h : Holds s cs) (ho : t.out = s.out) (hl : t.len = s.len) :
    Holds t cs := ⟨by rw [hl]; exact h.len, by rw [ho]; exact h.cells⟩

/-- Storing a cell at `LEN` appends it (R63). -/
theorem storeCell_holds {s : State} {cs : List Cell} (h : Holds s cs) (v : Cell) (hlt : cs.length + 1 < 2 ^ 64) :
    Holds (storeCell v s) (cs ++ [v]) := by
  refine ⟨?_, fun i => ?_⟩
  · rw [storeCell_len, BitVec.toNat_add, h.len]
    simp only [List.length_append, List.length_cons, List.length_nil]
    exact Nat.mod_eq_of_lt hlt
  · rw [storeCell_out, cellAt_putCell, h.cells i, h.len, List.getElem?_append]
    by_cases hi : i = cs.length
    · simp [hi]
    · by_cases hi' : i < cs.length
      · simp [hi, hi']
      · have : cs.length < i := by omega
        rw [if_neg hi, if_neg hi', List.getElem?_eq_none (by omega), List.getElem?_eq_none (by simp; omega)]

theorem storeCell_bufferOnly (v : Cell) (s : State) : BufferOnly s (storeCell v s) := rfl

/-- Storing cells one after the other appends them in order (R133). -/
theorem storeCells_holds (vs : List Cell) {s : State} {cs : List Cell} (h : Holds s cs)
    (hlt : cs.length + vs.length < 2 ^ 64) : Holds (storeCells vs s) (cs ++ vs) := by
  induction vs generalizing s cs with
  | nil => simpa [storeCells] using h
  | cons v rest ih =>
    simp only [List.length_cons] at hlt
    have h' := ih (storeCell_holds h v (by omega)) (by simp; omega)
    simpa [storeCells] using h'

theorem storeCells_bufferOnly (vs : List Cell) (s : State) : BufferOnly s (storeCells vs s) := by
  induction vs generalizing s with
  | nil => exact BufferOnly.refl s
  | cons v rest ih => exact (storeCell_bufferOnly v s).trans (ih (storeCell v s))

/-! ### Growth -/

@[simp] theorem alignUp_eq (c : Nat) : alignUp c = c := by simp [alignUp, Config.bufAlign]

/-- The doubling loop stops at the least doubling that is large enough (R131). -/
theorem doubleUntil_least (fuel c required : Nat) (h : required ≤ c * 2 ^ fuel) :
    Reference.LeastDoubling c required (doubleUntil fuel c required) := by
  induction fuel generalizing c with
  | zero => exact ⟨0, by simp [doubleUntil], by simpa [doubleUntil] using h, by omega⟩
  | succ fuel ih =>
    by_cases hc : c < required
    · obtain ⟨g, hg, hreq, hleast⟩ := ih (c * 2) (by rw [Nat.pow_succ'] at h; rw [Nat.mul_assoc]; exact h)
      refine ⟨g + 1, ?_, ?_, ?_⟩
      · rw [doubleUntil, if_pos hc, hg, Nat.pow_succ']
        ring
      · rw [doubleUntil, if_pos hc]
        exact hreq
      · intro g' hg'
        cases g' with
        | zero => simpa using hc
        | succ g' =>
          have := hleast g' (by omega)
          rw [Nat.pow_succ', ← Nat.mul_assoc]
          exact this
    · exact ⟨0, by simp [doubleUntil, hc], by simp [doubleUntil, hc]; omega, by omega⟩

/-- A growing reserve more than doubles nothing: its capacity is under twice what was required. -/
theorem leastDoubling_lt {c0 required c : Nat} (h : Reference.LeastDoubling c0 required c) (hlt : c0 < required) :
    c0 * 2 ≤ c ∧ c < 2 * required := by
  obtain ⟨g, rfl, hreq, hleast⟩ := h
  cases g with
  | zero => simp at hreq; omega
  | succ g =>
    have := hleast g (by omega)
    have hpos : 1 ≤ 2 ^ g := Nat.one_le_two_pow
    refine ⟨?_, ?_⟩
    · rw [Nat.pow_succ']
      nlinarith
    · rw [Nat.pow_succ']
      nlinarith

/-- The capacity a growing reserve chooses from a capacity of at least 1. -/
theorem grownCap_least {cap required : Nat} (hcap : 1 ≤ cap) (hreq : required ≤ Config.maxSafeLen) :
    Reference.LeastDoubling cap required (grownCap cap required) := by
  rw [grownCap, alignUp_eq]
  apply doubleUntil_least
  have : Config.maxSafeLen ≤ 1 * 2 ^ 54 := by decide
  have h2 : 1 * 2 ^ 54 ≤ cap * 2 ^ 54 := Nat.mul_le_mul_right _ hcap
  omega

/-! ### The buffer functions -/

/-- All `buf_reserve` can do (R131): it raises exactly when the exact sum passes `MAX_SAFE_LEN`, and then changes
nothing; else it leaves the state, or changes `CAP` and `GROW`. -/
theorem bufReserve_cases (n : Nat) (s : State) :
    (Config.maxSafeLen < s.len.toNat + n ∧ bufReserve n s = .raise .lengthOverflow s) ∨
    (s.len.toNat + n ≤ Config.maxSafeLen ∧ s.len.toNat + n ≤ s.cap.toNat ∧ bufReserve n s = .go s) ∨
    (s.len.toNat + n ≤ Config.maxSafeLen ∧ s.cap.toNat < s.len.toNat + n ∧
      bufReserve n s = .go { s with
        cap := BitVec.ofNat 64 (grownCap s.cap.toNat (s.len.toNat + n)), grow := s.grow + 1 }) := by
  unfold bufReserve
  split
  · exact .inl ⟨by assumption, rfl⟩
  · split
    · exact .inr (.inr ⟨by omega, by assumption, rfl⟩)
    · exact .inr (.inl ⟨by omega, by omega, rfl⟩)

/-- Where `buf_reserve` goes on, `OUT` and `LEN` are as before and nothing but `CAP` and `GROW` changes. -/
theorem bufReserve_go {n : Nat} {s t : State} (h : bufReserve n s = .go t) :
    s.len.toNat + n ≤ Config.maxSafeLen ∧ t = { s with cap := t.cap, grow := t.grow } := by
  rcases bufReserve_cases n s with ⟨_, he⟩ | ⟨hle, _, he⟩ | ⟨hle, _, he⟩
  · rw [he] at h; cases h
  · rw [he] at h; cases h; exact ⟨hle, rfl⟩
  · rw [he] at h; cases h; exact ⟨hle, rfl⟩

/-- `buf_reserve` goes on whenever the sum is representable. -/
theorem bufReserve_total {n : Nat} {s : State} (h : s.len.toNat + n ≤ Config.maxSafeLen) :
    ∃ t, bufReserve n s = .go t := by
  rcases bufReserve_cases n s with ⟨hgt, _⟩ | ⟨_, _, he⟩ | ⟨_, _, he⟩
  · omega
  · exact ⟨_, he⟩
  · exact ⟨_, he⟩

/-- The capacity after a growing reserve, as a number: no bit is lost in the 64-bit register. -/
theorem grownCap_toNat {cap required : Nat} (hcap : 1 ≤ cap) (hlt : cap < required)
    (hreq : required ≤ Config.maxSafeLen) :
    (BitVec.ofNat 64 (grownCap cap required)).toNat = grownCap cap required := by
  have h := leastDoubling_lt (grownCap_least hcap hreq) hlt
  have : Config.maxSafeLen = 2 ^ 53 - 1 := rfl
  rw [BitVec.toNat_ofNat]
  apply Nat.mod_eq_of_lt
  omega

/-- `buf_append` where the length is representable (R132): it goes on, and `OUT` holds one cell more. -/
theorem bufAppend_holds {s : State} {cs : List Cell} (h : Holds s cs) (v : Cell)
    (hle : cs.length + 1 ≤ Config.maxSafeLen) :
    ∃ t, bufAppend v s = .go t ∧ Holds t (cs ++ [v]) ∧ BufferOnly s t := by
  obtain ⟨u, hu⟩ := bufReserve_total (n := 1) (s := s) (by rw [h.len]; exact hle)
  have hgo := (bufReserve_go hu).2
  have hs : Config.maxSafeLen < 2 ^ 64 := by decide
  refine ⟨storeCell v u, by simp [bufAppend, hu], ?_, ?_⟩
  · exact storeCell_holds (h.congr (by rw [hgo]) (by rw [hgo])) v (by omega)
  · have : BufferOnly s u := by unfold BufferOnly; rw [hgo]
    exact this.trans (storeCell_bufferOnly v u)

/-- `buf_append_span` where the length is representable (R133): `OUT` holds the first `count` cells of `TOK` more. -/
theorem bufAppendSpan_holds {s : State} {cs : List Cell} (h : Holds s cs) (count : Nat)
    (hle : cs.length + count ≤ Config.maxSafeLen) :
    ∃ t, bufAppendSpan count s = .go t ∧ Holds t (cs ++ tokCells s count) ∧ BufferOnly s t := by
  obtain ⟨u, hu⟩ := bufReserve_total (n := count) (s := s) (by rw [h.len]; exact hle)
  have hgo := (bufReserve_go hu).2
  have hs : Config.maxSafeLen < 2 ^ 64 := by decide
  have htok : tokCells u count = tokCells s count := by rw [hgo]; rfl
  have hlen : (tokCells s count).length ≤ count := by simp [tokCells]
  refine ⟨storeCells (tokCells u count) u, by simp [bufAppendSpan, hu], ?_, ?_⟩
  · rw [htok]
    exact storeCells_holds _ (h.congr (by rw [hgo]) (by rw [hgo])) (by omega)
  · have : BufferOnly s u := by unfold BufferOnly; rw [hgo]
    exact this.trans (storeCells_bufferOnly _ u)

/-- `n` appends of one value. -/
theorem bufAppendTimes_holds (n : Nat) {s : State} {cs : List Cell} (h : Holds s cs) (v : Cell)
    (hle : cs.length + n ≤ Config.maxSafeLen) :
    ∃ t, bufAppendTimes n v s = .go t ∧ Holds t (cs ++ List.replicate n v) ∧ BufferOnly s t := by
  induction n generalizing s cs with
  | zero => exact ⟨s, rfl, by simpa using h, BufferOnly.refl s⟩
  | succ n ih =>
    obtain ⟨u, hu, hu', hub⟩ := bufAppend_holds h v (by omega)
    obtain ⟨t, ht, ht', htb⟩ := ih hu' (by simp; omega)
    refine ⟨t, by simp [bufAppendTimes, hu, ht], ?_, hub.trans htb⟩
    simpa [List.replicate_succ] using ht'

/-! ### The buffer's invariant -/

/-- A successful reserve keeps the buffer's invariant and makes the room it was asked for (R131, R135). -/
theorem bufReserve_keeps {n : Nat} {s t : State} (hs : BufferInv s) (h : bufReserve n s = .go t) :
    BufferInv t ∧ s.len.toNat + n ≤ t.cap.toNat := by
  rcases bufReserve_cases n s with ⟨_, he⟩ | ⟨_, hcap, he⟩ | ⟨hle, hlt, he⟩
  · rw [he] at h; cases h
  · rw [he] at h; cases h; exact ⟨hs, hcap⟩
  · rw [he] at h
    cases h
    have hleast := grownCap_least hs.cap_pos hle
    have hb := leastDoubling_lt hleast hlt
    have hnat := grownCap_toNat hs.cap_pos hlt hle
    have hsafe : Config.maxSafeLen = 2 ^ 53 - 1 := rfl
    have hreq : s.len.toNat + n ≤ grownCap s.cap.toNat (s.len.toNat + n) := by
      obtain ⟨_, _, hreq, _⟩ := hleast
      exact hreq
    have hgrow : s.grow.toNat < 64 := by
      by_contra hge
      have h1 : (2 : Nat) ^ 64 ≤ 2 ^ s.grow.toNat := Nat.pow_le_pow_right (by decide) (by omega)
      have h2 := hs.grow_cap
      have h3 := hs.cap_bound
      have h4 : (2 : Nat) ^ 54 < 2 ^ 64 := by decide
      omega
    have hg : (s.grow + 1).toNat = s.grow.toNat + 1 := by
      rw [BitVec.toNat_add]
      apply Nat.mod_eq_of_lt
      have : (1#64 : BitVec 64).toNat = 1 := rfl
      show s.grow.toNat + (1#64 : BitVec 64).toNat < 2 ^ 64
      omega
    refine ⟨⟨hs.out_wf, hs.out_cells, ?_, hs.len_le_safe, ?_, ?_, ?_⟩, ?_⟩
    · show s.len.toNat ≤ (BitVec.ofNat 64 (grownCap s.cap.toNat (s.len.toNat + n))).toNat
      rw [hnat]; omega
    · show 1 ≤ (BitVec.ofNat 64 (grownCap s.cap.toNat (s.len.toNat + n))).toNat
      rw [hnat]; have := hs.cap_pos; omega
    · show (BitVec.ofNat 64 (grownCap s.cap.toNat (s.len.toNat + n))).toNat ≤ 2 ^ 54
      rw [hnat]; omega
    · show 2 ^ (s.grow + 1).toNat ≤ (BitVec.ofNat 64 (grownCap s.cap.toNat (s.len.toNat + n))).toNat
      rw [hnat, hg, Nat.pow_succ]
      have := hs.grow_cap
      omega
    · show s.len.toNat + n ≤ (BitVec.ofNat 64 (grownCap s.cap.toNat (s.len.toNat + n))).toNat
      rw [hnat]; exact hreq

/-- Storing a cell keeps the buffer's invariant where there is room for it (R63). -/
theorem storeCell_keeps {s : State} (v : Cell) (hs : BufferInv s) (hcap : s.len.toNat + 1 ≤ s.cap.toNat)
    (hsafe : s.len.toNat + 1 ≤ Config.maxSafeLen) : BufferInv (storeCell v s) := by
  have hlen : (storeCell v s).len.toNat = s.len.toNat + 1 := by
    rw [storeCell_len, BitVec.toNat_add]
    have : Config.maxSafeLen < 2 ^ 64 := by decide
    apply Nat.mod_eq_of_lt
    show s.len.toNat + 1 < 2 ^ 64
    omega
  refine ⟨putCell_wf _ _ _ hs.out_wf, fun i => ?_, ?_, ?_, hs.cap_pos, hs.cap_bound, hs.grow_cap⟩
  · rw [hlen, storeCell_out, cellAt_putCell]
    by_cases hi : i = s.len.toNat
    · simp [hi]
    · rw [if_neg hi, hs.out_cells i]; omega
  · rw [hlen]; exact hcap
  · rw [hlen]; exact hsafe

/-- `buf_new` keeps the buffer's invariant (R130). -/
theorem bufNew_keeps {s : State} (hs : BufferInv s) : BufferInv (bufNew s) where
  out_wf := List.Pairwise.nil
  out_cells i := by simp
  len_le_cap := by simp
  len_le_safe := by simp
  cap_pos := hs.cap_pos
  cap_bound := hs.cap_bound
  grow_cap := by simpa using hs.cap_pos

/-- `buf_append` keeps the buffer's invariant (R135). -/
theorem bufAppend_keeps {v : Cell} {s t : State} (hs : BufferInv s) (h : bufAppend v s = .go t) : BufferInv t := by
  obtain ⟨u, hu, ht⟩ := Flow.bind_eq_go h
  cases ht
  obtain ⟨hk, hroom⟩ := bufReserve_keeps hs hu
  obtain ⟨hle, hgo⟩ := bufReserve_go hu
  have hlen : u.len = s.len := by rw [hgo]
  exact storeCell_keeps v hk (by rw [hlen]; exact hroom) (by rw [hlen]; exact hle)

/-- Storing cells keeps the buffer's invariant where there is room for all of them. -/
theorem storeCells_keeps (vs : List Cell) {s : State} (hs : BufferInv s)
    (hcap : s.len.toNat + vs.length ≤ s.cap.toNat) (hsafe : s.len.toNat + vs.length ≤ Config.maxSafeLen) :
    BufferInv (storeCells vs s) := by
  induction vs generalizing s with
  | nil => exact hs
  | cons v rest ih =>
    simp only [List.length_cons] at hcap hsafe
    have hlen : (storeCell v s).len.toNat = s.len.toNat + 1 := by
      rw [storeCell_len, BitVec.toNat_add]
      have : Config.maxSafeLen < 2 ^ 64 := by decide
      apply Nat.mod_eq_of_lt
      show s.len.toNat + 1 < 2 ^ 64
      omega
    exact ih (storeCell_keeps v hs (by omega) (by omega)) (by rw [hlen, storeCell_cap]; omega)
      (by rw [hlen]; omega)

/-- `buf_append_span` keeps the buffer's invariant (R135). -/
theorem bufAppendSpan_keeps {count : Nat} {s t : State} (hs : BufferInv s) (h : bufAppendSpan count s = .go t) :
    BufferInv t := by
  obtain ⟨u, hu, ht⟩ := Flow.bind_eq_go h
  cases ht
  obtain ⟨hk, hroom⟩ := bufReserve_keeps hs hu
  obtain ⟨hle, hgo⟩ := bufReserve_go hu
  have hlen : u.len = s.len := by rw [hgo]
  have hc : (tokCells u count).length ≤ count := by simp [tokCells]
  exact storeCells_keeps _ hk (by rw [hlen]; omega) (by rw [hlen]; omega)

end Sys2Proof.Machine
end

