-- ==== Sys2Proof/Laws/PerInstr.lean ====
section
/-! SUPPORT. Families of statements made for each command. -/

namespace Sys2Proof.Laws

/-- The row of spec/opcode_table.json a command stands for: its mask and its match. -/
def tableRow : Instr → Word × Word
  | .encode => (0xFFFFFFFFFFFFFFFF#64, 0x1#64)
  | .decode => (0xFFFFFFFFFFFFFFFF#64, 0x2#64)
  | .hashenc => (0xFFFFFFFFFFFFFFFF#64, 0x3#64)
  | .next => (0xFFFFFFFFFFFFFFFF#64, 0x4#64)
  | .bufnew => (0xFFFFFFFFFFFFFFFF#64, 0x5#64)
  | .reserve => (0xFFFFFFFFFFFFFFFF#64, 0x6#64)
  | .append => (0xFFFFFFFFFFFFFFFF#64, 0x7#64)
  | .appendspan => (0xFFFFFFFFFFFFFFFF#64, 0x8#64)
  | .length => (0xFFFFFFFFFFFFFFFF#64, 0x9#64)
  | .lookup => (0xFFFFFFFFFFFFFFFF#64, 0xA#64)
  | .token => (0xFFFFFFFFFFFFFFFF#64, 0xB#64)
  | .release _ => (0xF#64, 0xF#64)

/-- The encoded word of a command is a word of its table row, and the row's match itself for a command written as
the spec asks (R22). -/
def TableWord.Statement (i : Instr) : Prop :=
  encode i &&& (tableRow i).1 = (tableRow i).2 ∧ (i.wellFormed = true → encode i = (tableRow i).2)

theorem TableWord.encode : TableWord.Statement .encode := ⟨by decide, fun _ => rfl⟩
theorem TableWord.decode : TableWord.Statement .decode := ⟨by decide, fun _ => rfl⟩
theorem TableWord.hashenc : TableWord.Statement .hashenc := ⟨by decide, fun _ => rfl⟩
theorem TableWord.next : TableWord.Statement .next := ⟨by decide, fun _ => rfl⟩
theorem TableWord.bufnew : TableWord.Statement .bufnew := ⟨by decide, fun _ => rfl⟩
theorem TableWord.reserve : TableWord.Statement .reserve := ⟨by decide, fun _ => rfl⟩
theorem TableWord.append : TableWord.Statement .append := ⟨by decide, fun _ => rfl⟩
theorem TableWord.appendspan : TableWord.Statement .appendspan := ⟨by decide, fun _ => rfl⟩
theorem TableWord.length : TableWord.Statement .length := ⟨by decide, fun _ => rfl⟩
theorem TableWord.lookup : TableWord.Statement .lookup := ⟨by decide, fun _ => rfl⟩
theorem TableWord.token : TableWord.Statement .token := ⟨by decide, fun _ => rfl⟩

theorem TableWord.release (unexamined : BitVec 60) : TableWord.Statement (.release unexamined) := by
  refine ⟨?_, fun h => ?_⟩
  · apply BitVec.eq_of_toNat_eq
    have h15 : (15 : Nat) = 2 ^ 4 - 1 := rfl
    simp only [tableRow, Sys2Proof.encode, BitVec.toNat_and, BitVec.toNat_append]
    show (unexamined.toNat <<< 4 ||| 15) &&& 15 = 15
    apply Nat.eq_of_testBit_eq
    intro i
    simp only [Nat.testBit_and, Nat.testBit_or]
    cases Nat.testBit 15 i <;> simp
  · have h0 : unexamined = 0 := by simpa [Instr.wellFormed] using h
    subst h0
    rfl

end Sys2Proof.Laws
end

