-- ==== Sys2Proof/Laws/Symbols.lean ====
section
/-! SUPPORT. What the symbol units can do (spec/41_symbol_units.md): one lemma for each that says it once. -/

namespace Sys2Proof.Machine

/-! ### The alphabet and its inverse -/

/-- Looking a symbol of the alphabet up gives the first index it stands at (R98). -/
theorem lookup_alpha (t : Nibble) :
    lookup (symbolCell (alpha t)) = if t = 14 then 0 else if t = 15 then 1 else t.setWidth 6 := by
  revert t
  decide

/-- The alphabet as a list holds at each index what `alpha` gives (R97). -/
theorem alphabet_getElem {i : Nat} (h : i < alphabet.toList.length) :
    alphabet.toList[i] = alpha (BitVec.ofNat 4 i) := by
  have h16 : i < 16 := h
  have hm : i % 16 = i := Nat.mod_eq_of_lt h16
  simp [alpha, hm]

/-- A cell that is no alphabet byte, zero-extended, is a miss (R152). -/
theorem lookup_eq_miss {c : Cell} (h : ∀ t : Nibble, c ≠ symbolCell (alpha t)) : lookup c = lookupMiss := by
  have hnone : (alphabet.toList.findIdx? fun a => decide (c = symbolCell a)) = none := by
    rw [List.findIdx?_eq_none_iff]
    intro a ha
    have : ∃ t : Nibble, a = alpha t := by
      obtain ⟨i, hi, rfl⟩ := List.getElem_of_mem ha
      exact ⟨BitVec.ofNat 4 i, alphabet_getElem hi⟩
    obtain ⟨t, rfl⟩ := this
    simpa using h t
  simp [lookup, hnone, lookupMiss]

/-- All `lookup` can answer (R152). -/
theorem lookup_cases (c : Cell) :
    (∃ t : Nibble, t.toNat < 14 ∧ c = symbolCell (alpha t) ∧ lookup c = t.setWidth 6) ∨
    ((∀ t : Nibble, c ≠ symbolCell (alpha t)) ∧ lookup c = lookupMiss) := by
  by_cases h : ∃ t : Nibble, c = symbolCell (alpha t)
  · obtain ⟨t, rfl⟩ := h
    have hl := lookup_alpha t
    by_cases h14 : t = 14
    · exact .inl ⟨0, by decide, by rw [h14]; decide, by rw [hl, if_pos h14]; decide⟩
    · by_cases h15 : t = 15
      · exact .inl ⟨1, by decide, by rw [h15]; decide, by rw [hl, if_neg h14, if_pos h15]; decide⟩
      · refine .inl ⟨t, ?_, rfl, by rw [hl, if_neg h14, if_neg h15]⟩
        have h1 : t.toNat ≠ 14 := fun he => h14 (BitVec.eq_of_toNat_eq he)
        have h2 : t.toNat ≠ 15 := fun he => h15 (BitVec.eq_of_toNat_eq he)
        have := t.isLt
        omega
  · exact .inr ⟨fun t ht => h ⟨t, ht⟩, lookup_eq_miss fun t ht => h ⟨t, ht⟩⟩

/-! ### The escape rule -/

/-- The test `((t - 2) mod 16) >= 12` holds exactly of the four ambiguous nibbles (R151). -/
theorem ambiguous_eq (t : Nibble) : ambiguous t = Reference.isAmbiguous t := by
  revert t
  decide

theorem tokenOf_length (t : Nibble) :
    (Reference.tokenOf t).length = if Reference.isAmbiguous t then 2 else 1 := by
  unfold Reference.tokenOf
  split <;> rfl

/-- Only `TOK` and `K` differ. -/
def TokOnly (s t : State) : Prop := t = { s with tok := t.tok, k := t.k }

theorem TokOnly.trans_tok {s t u : State} (h : TokOnly s t) (h' : TokOnly t u) : TokOnly s u := by
  unfold TokOnly at *
  rw [h', h]

/-- One symbol pushed on `TOK` (R76). -/
theorem pushTok_spec (v : Symbol) {s : State} (h : s.k.toNat < 16) :
    (pushTok v s).k.toNat = s.k.toNat + 1 ∧
    (pushTok v s).tok.toList.take (pushTok v s).k.toNat = s.tok.toList.take s.k.toNat ++ [v] ∧
    TokOnly s (pushTok v s) := by
  have hk : (pushTok v s).k.toNat = s.k.toNat + 1 := by
    rw [pushTok_k, BitVec.toNat_add]
    exact Nat.mod_eq_of_lt (by show s.k.toNat + 1 < 32; omega)
  refine ⟨hk, ?_, rfl⟩
  rw [hk, pushTok_tok]
  have hl : s.tok.toList.length = 16 := by simp
  have hset : (s.tok.setIfInBounds s.k.toNat v).toList = s.tok.toList.set s.k.toNat v := by
    simp [Vector.toList]
  rw [hset]
  apply List.ext_getElem
  · simp [hl]; omega
  · intro i h1 h2
    simp only [List.getElem_take, List.getElem_set, List.getElem_append, List.length_take, hl]
    have hi : i < s.k.toNat + 1 := by simp at h1; omega
    by_cases he : s.k.toNat = i
    · simp [he]
    · have : i < s.k.toNat := by omega
      simp [he, this]
      omega

/-- `token` (R151): the token's symbols follow those already in `TOK`, and `K` counts them. -/
theorem token_spec (t : Nibble) {s : State} (h : s.k.toNat < 15) :
    (token t s).k.toNat = s.k.toNat + (Reference.tokenOf t).length ∧
    (token t s).tok.toList.take (token t s).k.toNat = s.tok.toList.take s.k.toNat ++ Reference.tokenOf t ∧
    TokOnly s (token t s) := by
  obtain ⟨hk, htok, hf⟩ := pushTok_spec (alpha t) (s := s) (by omega)
  unfold token
  rw [ambiguous_eq]
  by_cases ha : Reference.isAmbiguous t = true
  · obtain ⟨hk2, htok2, hf2⟩ := pushTok_spec (alpha (t >>> 3)) (s := pushTok (alpha t) s) (by omega)
    simp only [ha, if_true, Reference.tokenOf]
    refine ⟨by rw [hk2, hk]; rfl, ?_, ?_⟩
    · rw [htok2, htok]; simp
    · exact hf.trans_tok hf2
  · simp only [ha, Reference.tokenOf]
    exact ⟨hk, htok, hf⟩

/-! ### Escape pairs -/

/-- The pair table (R104): `prev + 14 * r`. -/
theorem pairNibble_toNat (p : BitVec 1) (r : BitVec 6) (h : r.toNat < 2) :
    (pairNibble p r).toNat = p.toNat + 14 * r.toNat := by
  have : r = 0 ∨ r = 1 := by
    rcases Nat.lt_or_ge r.toNat 1 with h1 | h1
    · exact .inl (BitVec.eq_of_toNat_eq (by show r.toNat = 0; omega))
    · exact .inr (BitVec.eq_of_toNat_eq (by show r.toNat = 1; omega))
  rcases this with rfl | rfl <;> revert p <;> decide

end Sys2Proof.Machine
end

