-- ==== Sys2Proof/Laws/Transforms.lean ====
section
/-! SUPPORT. What the frame of a transform, and the moves of the machine, can do: one lemma for each. -/

namespace Sys2Proof.Machine

/-! ### Transforms (R165, R180, R215) -/

/-- All a transform can do: the empty input, the length limit, or its body. -/
theorem transformResult_cases (limit : Nat) (body : State → Flow) (s : State) :
    (s.arg0 = 0 ∧ transformResult limit body s = finish Config.stEmpty (startTransform s)) ∨
    (s.arg0 ≠ 0 ∧ limit < s.arg0.toNat ∧ transformResult limit body s = raiseEntry .tooLarge (startTransform s)) ∨
    (s.arg0 ≠ 0 ∧ s.arg0.toNat ≤ limit ∧ transformResult limit body s = transformEnd (body (startTransform s))) := by
  have hin : (startTransform s).inLen = s.arg0 := rfl
  rw [← hin]
  by_cases h0 : (startTransform s).inLen = 0
  · exact .inl ⟨h0, by rw [transformResult, if_pos h0]⟩
  · by_cases hl : limit < (startTransform s).inLen.toNat
    · exact .inr (.inl ⟨h0, hl, by rw [transformResult, if_neg h0, if_pos hl]⟩)
    · exact .inr (.inr ⟨h0, by omega, by rw [transformResult, if_neg h0, if_neg hl]⟩)

/-- A transform whose body goes on to `t` succeeds with `t`'s buffer as its payload. -/
theorem transform_go {limit : Nat} {body : State → Flow} {s t : State} (h0 : s.arg0 ≠ 0)
    (hl : s.arg0.toNat ≤ limit) (h : body (startTransform s) = .go t) :
    transform limit body s = .next (scrambleTok (finish Config.stSuccess t)) := by
  rcases transformResult_cases limit body s with ⟨h', _⟩ | ⟨_, h', _⟩ | ⟨_, _, he⟩
  · exact absurd h' h0
  · omega
  · simp [transform, he, h, transformEnd]

/-- A transform whose body raises fails. -/
theorem transform_raise {limit : Nat} {body : State → Flow} {s t : State} {x : Raise} (h0 : s.arg0 ≠ 0)
    (hl : s.arg0.toNat ≤ limit) (h : body (startTransform s) = .raise x t) :
    transform limit body s = .next (scrambleTok (raiseEntry x t)) := by
  rcases transformResult_cases limit body s with ⟨h', _⟩ | ⟨_, h', _⟩ | ⟨_, _, he⟩
  · exact absurd h' h0
  · omega
  · simp [transform, he, h, transformEnd]

/-! ### Reading the input -/

/-- A character is read at the cursor, which moves on by one (R62). -/
theorem loadChar_spec {s : State} (h : s.cur.toNat < 2 ^ 32 - 1) :
    (loadChar s).ch = inCell s s.cur.toNat ∧ (loadChar s).cur.toNat = s.cur.toNat + 1 := by
  refine ⟨rfl, ?_⟩
  rw [loadChar_cur, BitVec.toNat_add]
  apply Nat.mod_eq_of_lt
  show s.cur.toNat + 1 < 2 ^ 32
  omega

/-- `IN` reads the same in states that agree on it (R60). -/
theorem inCell_congr {s t : State} (h : t.inp = s.inp) (i : Nat) : inCell t i = inCell s i := by
  unfold inCell
  rw [h]

/-- The input cells of a held transform, and only they, are in use (R64, R236, R283). -/
theorem inputInUse_iff (i : Nat) (s : State) : inputInUse i s = true ↔ TransformHeld s ∧ i < s.arg0.toNat := by
  unfold inputInUse TransformHeld
  cases hs : s.state <;> simp
  cases hh : s.held with
  | none => simp
  | some w =>
    simp only [Option.some.injEq, exists_eq_left']
    cases hd : decode w with
    | error e => simp
    | ok i => cases i <;> simp

/-! ### The moves of the machine -/

theorem nextMove_nil {s : State} (h : s.inputs = []) : nextMove s = engineTurn s := by
  simp [nextMove, h]

theorem nextMove_cons {s : State} {e : HostEvent} {rest : List HostEvent} (h : s.inputs = e :: rest) :
    nextMove s = hostAction e { s with inputs := rest } := by
  simp [nextMove, h]

/-- All the ENGINE's turn can be (R230, R231, R233, R294). -/
theorem engineTurn_cases (s : State) :
    (∃ w i, s.state = .busy ∧ s.held = some w ∧ decode w = .ok i ∧ engineTurn s = .run i s) ∨
    (∃ w e, s.state = .busy ∧ s.held = some w ∧ decode w = .error e ∧
      engineTurn s = .settle (raiseEntry .badCommand s)) ∨
    ((s.state ≠ .busy ∨ s.held = none) ∧ engineTurn s = .settle s) := by
  cases hs : s.state with
  | idle => exact .inr (.inr ⟨.inl (by simp), by simp [engineTurn, hs]⟩)
  | done => exact .inr (.inr ⟨.inl (by simp), by simp [engineTurn, hs]⟩)
  | busy =>
    cases hh : s.held with
    | none => exact .inr (.inr ⟨.inr rfl, by simp [engineTurn, hs, hh]⟩)
    | some w =>
      cases hd : decode w with
      | ok i => exact .inl ⟨w, i, rfl, rfl, hd, by simp [engineTurn, hs, hh, hd]⟩
      | error e => exact .inr (.inl ⟨w, e, rfl, rfl, hd, by simp [engineTurn, hs, hh, hd]⟩)

/-- All a `CMD` write can be (R230). -/
theorem writeCmd_cases (w : Word) (s : State) :
    (cmdOp w = 0xF#4 ∧ s.state ≠ .busy ∧ writeCmd w s = .run (.release (cmdReserved w)) s) ∨
    (cmdOp w ≠ 0xF#4 ∧ s.state = .idle ∧ writeCmd w s = .settle { s with state := .busy, held := some w }) ∨
    ((cmdOp w = 0xF#4 ∧ s.state = .busy ∨ cmdOp w ≠ 0xF#4 ∧ s.state ≠ .idle) ∧ writeCmd w s = .settle s) := by
  unfold writeCmd
  by_cases hw : cmdOp w = 0xF#4
  · by_cases hs : s.state = .busy
    · exact .inr (.inr ⟨.inl ⟨hw, hs⟩, by simp [hw, hs]⟩)
    · exact .inl ⟨hw, hs, by simp [hw, hs]⟩
  · by_cases hs : s.state = .idle
    · exact .inr (.inl ⟨hw, hs, by simp [hw, hs]⟩)
    · exact .inr (.inr ⟨.inr ⟨hw, hs⟩, by simp [hw, hs]⟩)

/-- A step that settles. -/
theorem step_of_settle {s t : State} (h : nextMove s = .settle t) : step s = .next t := by
  simp [step, h]

/-- A step that runs a command. -/
theorem step_of_run {s t : State} {i : Instr} (h : nextMove s = .run i t) : step s = exec i t := by
  simp [step, h]

/-- A step that is refused. -/
theorem step_of_refuse {s : State} {r : Refusal} (h : nextMove s = .refuse r) : step s = .refused r := by
  simp [step, h]

end Sys2Proof.Machine
end

