-- ==== Sys2Proof/Tests/Slice0.lean ====
section
/-! SUPPORT. Tests of one step each, their expected results from spec/95_test_vectors.md or worked out from the rule
named; and for every statement with hypotheses, a state that meets them. -/

namespace Sys2Proof.Tests

open Sys2Proof.Machine Sys2Proof.Reference

/-- After reset, with `ARG0` and `IN` as the HOST stages a transform (R282). -/
def staged (cells : List Cell) : State :=
  { State.reset with
    arg0 := BitVec.ofNat 64 cells.length
    inp := (List.range cells.length).zip cells }

/-- After reset, with an operand in `ARG0`. -/
def withArg (a : Word) : State := { State.reset with arg0 := a }

/-- A buffer of given length and capacity. -/
def buffer (len cap : Word) (a : Word) : State := { State.reset with len := len, cap := cap, arg0 := a }

/-- The state an outcome goes on to (reset for a stop: no test below expects one). -/
def after (o : Host.Outcome State Fault Refusal) : State :=
  match o with
  | .next t => t
  | _ => State.reset

/-- What a HOST reads of a completed command: `STATUS`, `RES0` and the payload (R112). -/
def result (o : Host.Outcome State Fault Refusal) : Word × Word × List Cell :=
  ((after o).status, (after o).res0, payload (after o))

/-- `LEN`, `CAP`, `GROW`. -/
def regs (o : Host.Outcome State Fault Refusal) : Nat × Nat × Nat :=
  ((after o).len.toNat, (after o).cap.toNat, (after o).grow.toNat)

/-! ### Well-formed commands -/

theorem test_release_with_upper_bits_is_ill_formed : (Instr.release 1).wellFormed = false := by decide
theorem test_release_is_well_formed : (Instr.release 0).wellFormed = true := by decide

/-! ### Decoding: the words of the OP map (R95), written out bit by bit -/

theorem test_decode_encode : decode 0b0001#64 = .ok .encode := by rfl
theorem test_decode_decode : decode 0b0010#64 = .ok .decode := by rfl
theorem test_decode_hashenc : decode 0b0011#64 = .ok .hashenc := by rfl
theorem test_decode_next : decode 0b0100#64 = .ok .next := by rfl
theorem test_decode_bufnew : decode 0b0101#64 = .ok .bufnew := by rfl
theorem test_decode_reserve : decode 0b0110#64 = .ok .reserve := by rfl
theorem test_decode_append : decode 0b0111#64 = .ok .append := by rfl
theorem test_decode_appendspan : decode 0b1000#64 = .ok .appendspan := by rfl
theorem test_decode_length : decode 0b1001#64 = .ok .length := by rfl
theorem test_decode_lookup : decode 0b1010#64 = .ok .lookup := by rfl
theorem test_decode_token : decode 0b1011#64 = .ok .token := by rfl
theorem test_decode_release : decode 0b1111#64 = .ok (.release 0) := by rfl
/-- X6 of spec/95_test_vectors.md section 8. -/
theorem test_decode_release_upper : decode 0x1F#64 = .ok (.release 1) := by rfl
/-- X2 and X3. -/
theorem test_decode_reserved_ops :
    decode 0x0#64 = .error (.reservedOp 0) ∧ decode 0xC#64 = .error (.reservedOp 12) ∧
    decode 0xD#64 = .error (.reservedOp 13) ∧ decode 0xE#64 = .error (.reservedOp 14) := ⟨rfl, rfl, rfl, rfl⟩
/-- X4 and X5. -/
theorem test_decode_reserved_bits :
    decode 0x11#64 = .error .reservedBits ∧ decode 0x8000000000000001#64 = .error .reservedBits := ⟨rfl, rfl⟩

/-! ### Buffer (section 2) -/

/-- B27. -/
theorem test_bufnew : regs (exec .bufnew { buffer 17 32 0 with grow := 1 }) = (0, 32, 0) := by decide
/-- B12. -/
theorem test_reserve_doubles_twice : regs (exec .reserve (buffer 10 16 30)) = (10, 64, 1) := by decide
/-- B15 and B16: the boundary of `MAX_SAFE_LEN`. -/
theorem test_reserve_boundary :
    result (exec .reserve (buffer 7 16 0x001FFFFFFFFFFFF9)) = (0xFFFFFFFFFFFFFFFD, 0, []) ∧
    regs (exec .reserve (buffer 7 16 0x001FFFFFFFFFFFF8)) = (7, 2 ^ 53, 1) := by decide
/-- B19. -/
theorem test_append_grows :
    regs (exec .append (buffer 16 16 0x2E)) = (17, 32, 1) ∧
    outCell (after (exec .append (buffer 16 16 0x2E))) 16 = 0x2E := by decide
/-- B21. -/
theorem test_append_bad_operand : (after (exec .append (buffer 3 16 0x10000))).status = 0xFFFFFFFFFFFFFFFC := by
  decide
/-- B22. -/
theorem test_appendspan :
    ([4, 5, 6].map (outCell (after (exec .appendspan
      { buffer 4 16 3 with tok := #v[0x2E, 0x20, 0x3C, 0, 0, 0, 0, 0, 0, 0, 0, 0, 0, 0, 0, 0] }))))
      = [0x2E, 0x20, 0x3C] := by decide
/-- B25. -/
theorem test_appendspan_bad_operand : (after (exec .appendspan (buffer 3 16 17))).status = 0xFFFFFFFFFFFFFFFC := by
  decide
/-- B26. -/
theorem test_length :
    (after (exec .length (buffer 3 16 0))).res0 = 3 ∧ (after (exec .length (buffer 3 16 0))).payloadLen = 3 := by
  decide

/-! ### Symbol units (section 3) -/

theorem test_lookup_dot_is_first_match : (after (exec .lookup (withArg 0x2E))).res0 = 1 := by decide
theorem test_lookup_miss_high_byte : (after (exec .lookup (withArg 0x0120))).res0 = 0xFFFFFFFFFFFFFFFF := by decide
theorem test_token_14 :
    (after (exec .token (withArg 14))).res0 = 2 ∧ (after (exec .token (withArg 14))).tok[0] = 0x20 ∧
    (after (exec .token (withArg 14))).tok[1] = 0x2E := by decide
theorem test_token_4 :
    (after (exec .token (withArg 4))).res0 = 1 ∧ (after (exec .token (withArg 4))).tok[0] = 0x3C := by decide

/-! ### ENCODE (section 4) -/

theorem test_encode_A :
    result (exec .encode (staged [0x41])) = (1, 0, [0x2E, 0x2E, 0x2E, 0x20, 0x2E, 0x20, 0x3C]) := by decide
/-- Interior zero nibbles are encoded. -/
theorem test_encode_0101 :
    result (exec .encode (staged [0x0101])) =
      (1, 0, [0x2E, 0x2E, 0x2E, 0x2E, 0x2E, 0x2E, 0x20, 0x2E, 0x20, 0x20, 0x20, 0x2E, 0x20]) := by decide

/-! ### DECODE (section 5) -/

theorem test_decode_A :
    result (exec .decode (staged [0x2E, 0x2E, 0x2E, 0x20, 0x2E, 0x20, 0x3C])) = (1, 0, [0x41]) := by decide
/-- `. _X`: the trailing cell is swallowed. -/
theorem test_decode_swallows_last : result (exec .decode (staged [0x2E, 0x20, 0x5F, 0x58])) = (1, 0, [0x02]) := by
  decide

/-! ### The padding generator and HASHENC (sections 6 and 7) -/

theorem test_next_ref : nextRef 1 = 0x58AD1C69 ∧ nextRef 0xDEADBEEF = 0xFC71A862 := by decide +kernel
theorem test_next_bad_operand : (after (exec .next (withArg 0x100000000))).status = 0xFFFFFFFFFFFFFFFC := by decide
/-- Section 7.1, `NEXT_FN = inc`. -/
theorem test_hashenc_inc :
    result (hashencWith (fun s => s + 1) (staged [0x41])) =
      (1, 0, [0x2E, 0x2E, 0x3C, 0x3E, 0x28, 0x2E, 0x29, 0x7B, 0x7D, 0x22, 0x27, 0x20, 0x20, 0x2E, 0x2E, 0x2E, 0x2E,
        0x2E, 0x2E, 0x3C]) := by decide
/-- Section 7.2, `NEXT_FN = id`: a leading zero character draws from the generator and emits nothing. -/
theorem test_hashenc_id :
    result (hashencWith id (staged [0x0000, 0x0041])) =
      (1, 0, List.replicate 14 0x2E ++ [0x3C]) := by decide

/-! ### Control (section 8) -/

/-- X8. -/
theorem test_release : (after (exec (.release 0) { State.reset with state := .done })).state = .idle := by decide
/-- X2: a reserved `OP` written in IDLE, then the ENGINE's turn. -/
theorem test_bad_command :
    result (Host.Core.run core 2 { State.reset with inputs := [.writeReg 0 0] }) = (0xFFFFFFFFFFFFFFFC, 0, []) := by
  decide
/-- X7: a command written in DONE is ignored. -/
theorem test_forgotten_release :
    (after (step { State.reset with state := .done, inputs := [.writeReg 0 1] })).state = .done := by decide
/-- X11 and X10. -/
theorem test_tok_writes :
    (after (step { State.reset with inputs := [.writeReg 32 0x141] })).tok[0] = 0x41 ∧
    (after (step { State.reset with state := .done, inputs := [.writeReg 32 0x41] })).tok[0] = 0 := by decide
/-- The first command after reset: each table word, placed for the next step, runs to DONE; RELEASE stays in IDLE. -/
theorem test_first_command :
    ([1, 2, 3, 4, 5, 6, 7, 8, 9, 10, 11].map fun w =>
      (after (step (State.reset.withFetchWord 64 w))).state) = List.replicate 11 .done ∧
    (after (step (State.reset.withFetchWord 64 15))).state = .idle := by decide

/-! ### States that meet the hypotheses of the statements -/

/-- BUSY with a command held (R230). -/
def busyWith (w : Word) (events : List HostEvent) : State :=
  { State.reset with state := .busy, held := some w, inputs := events }

/-- DONE after a success with one cell of payload. -/
def doneWith (events : List HostEvent) : State :=
  { after (exec .append (withArg 0x41)) with inputs := events }

theorem witness_ReservedWordsAreRejected :
    (∃ w : Word, decode w = .error .reservedBits ∧ w.toNat = 16) ∧
    ([0x0#64, 0xC#64, 0xD#64, 0xE#64].map fun w => decode w) =
      [.error (.reservedOp 0), .error (.reservedOp 12), .error (.reservedOp 13), .error (.reservedOp 14)] :=
  ⟨⟨16, rfl, rfl⟩, rfl⟩

theorem witness_StepRunsTheDecodedCommand :
    ((busyWith 0x9 []).state = .busy ∧ (busyWith 0x9 []).held = some 0x9 ∧ decode 0x9 = .ok .length ∧
      (busyWith 0x9 []).inputs = []) ∧
    ((busyWith 0x9 [.engine]).state = .busy ∧ (busyWith 0x9 [.engine]).held = some 0x9 ∧
      (busyWith 0x9 [.engine]).inputs = [.engine]) ∧
    ((doneWith [.writeReg 0 0x1F]).state ≠ .busy ∧ (doneWith [.writeReg 0 0x1F]).inputs = [.writeReg 0 0x1F] ∧
      decode 0x1F = .ok (.release 1)) :=
  ⟨⟨rfl, rfl, rfl, rfl⟩, ⟨rfl, rfl, rfl⟩, ⟨by decide, rfl, rfl⟩⟩

theorem witness_PlacedWordRunsNext :
    decodeTableWord 64 0xB = some .token ∧ decodeTableWord 8 0xF = some (.release 0) := ⟨rfl, rfl⟩

theorem witness_CmdWriteByState :
    ([0x0F#64, 0x1F#64, 0x1#64, 0xE#64].all fun w =>
      ({ State.reset with inputs := [.writeReg 0 w] }).state = .idle &&
      (busyWith 0x1 [.writeReg 0 w]).state = .busy && (doneWith [.writeReg 0 w]).state = .done) = true ∧
    (0x0F#64 : Word).toNat % 16 = 15 ∧ (0x1F#64 : Word).toNat % 16 = 15 ∧ (0x1#64 : Word).toNat % 16 ≠ 15 ∧
    (0xE#64 : Word).toNat % 16 ≠ 15 ∧ decode 0x1#64 = .ok .encode ∧ decode 0xE#64 = .error (.reservedOp 14) := by
  refine ⟨by decide, by decide, by decide, by decide, by decide, rfl, rfl⟩

theorem witness_PairTableInvertsEscapes : (15 : Nibble) ∈ ([0, 1, 14, 15] : List Nibble) := by decide

theorem witness_BadCommandChangesNothingElse :
    ([0x10#64, 0x0#64, 0xC#64, 0xD#64, 0xE#64].all fun w =>
      (busyWith w []).state = .busy && (busyWith w []).held = some w && w.toNat % 16 ≠ 15 &&
      (decide (16 ≤ w.toNat) || w.toNat = 0 || w.toNat = 12 || w.toNat = 13 || w.toNat = 14)) = true ∧
    2 ^ 32 ≤ (withArg 0x100000000).arg0.toNat ∧ 2 ^ 16 ≤ (withArg 0x10000).arg0.toNat ∧
    17 ≤ (withArg 17).arg0.toNat ∧ 2 ^ 4 ≤ (withArg 16).arg0.toNat := by decide

theorem witness_ReserveGrowsByDoubling :
    (1 ≤ (buffer 7 16 9).cap.toNat ∧ (buffer 7 16 9).len.toNat + (buffer 7 16 9).arg0.toNat ≤ 2 ^ 53 - 1) ∧
    (buffer 7 16 9).len.toNat + (buffer 7 16 9).arg0.toNat ≤ (buffer 7 16 9).cap.toNat ∧
    (1 ≤ (buffer 7 1 0x1FFFFFFFFFFFF8).cap.toNat ∧
      (buffer 7 1 0x1FFFFFFFFFFFF8).len.toNat + (buffer 7 1 0x1FFFFFFFFFFFF8).arg0.toNat = 2 ^ 53 - 1) := by decide

theorem witness_LengthOverflowChangesNothingElse :
    (2 ^ 53 - 1 < (buffer 7 16 0x1FFFFFFFFFFFF9).len.toNat + (buffer 7 16 0x1FFFFFFFFFFFF9).arg0.toNat) ∧
    ((buffer 0x1FFFFFFFFFFFFF 16 0xFFFF).arg0.toNat < 2 ^ 16 ∧
      2 ^ 53 - 1 ≤ (buffer 0x1FFFFFFFFFFFFF 16 0xFFFF).len.toNat) ∧
    ((buffer 0x1FFFFFFFFFFFF0 16 16).arg0.toNat ≤ 16 ∧
      2 ^ 53 - 1 < (buffer 0x1FFFFFFFFFFFF0 16 16).len.toNat + (buffer 0x1FFFFFFFFFFFF0 16 16).arg0.toNat) := by
  decide

theorem witness_AppendStoresAtLen :
    (buffer 16 16 0xFFFF).arg0 = (0xFFFF#16).setWidth 64 ∧ 1 ≤ (buffer 16 16 0xFFFF).cap.toNat ∧
    (buffer 16 16 0xFFFF).len.toNat < 2 ^ 53 - 1 ∧ (buffer 15 16 0).arg0 = (0#16).setWidth 64 ∧
    (buffer 15 16 0).len.toNat + 1 ≤ (buffer 15 16 0).cap.toNat := by decide

theorem witness_AppendspanStoresTheSpan :
    ([0, 1, 16].all fun n : Nat =>
      decide ((buffer 4 16 (BitVec.ofNat 64 n)).arg0.toNat ≤ 16) && decide (1 ≤ (buffer 4 16 0).cap.toNat) &&
      decide ((buffer 4 16 (BitVec.ofNat 64 n)).len.toNat + (buffer 4 16 (BitVec.ofNat 64 n)).arg0.toNat
        ≤ 2 ^ 53 - 1)) = true := by decide

theorem witness_StoredCellsSurvive :
    ∃ t, exec .append (doneWith []) = .next t ∧ 0 < (doneWith []).len.toNat := ⟨_, rfl, by decide⟩

theorem witness_SingleAppendsDoubleOnceEach :
    State.reset.len = 0 ∧ State.reset.grow = 0 ∧ 1 ≤ State.reset.cap.toNat ∧
    (List.replicate 17 (0x2E : Cell)).length ≤ 2 ^ 53 - 1 := by decide

theorem witness_LookupReturnsFirstIndex :
    ((withArg 0x20).arg0 = (0x20#16).setWidth 64 ∧ (0x20#16 : Cell) = symbolCell (alpha 0) ∧
      ∀ k' : Nibble, k' < 0 → (0x20#16 : Cell) ≠ symbolCell (alpha k')) ∧
    ((0x2C#16 : Cell) = symbolCell (alpha 13) ∧
      ∀ k' : Nibble, k' < 13 → (0x2C#16 : Cell) ≠ symbolCell (alpha k')) ∧
    ((withArg 0x0120).arg0 = (0x120#16).setWidth 64 ∧ ∀ k : Nibble, (0x120#16 : Cell) ≠ symbolCell (alpha k)) := by
  decide

theorem witness_InverseTableIsFirstMatch :
    (0xFFFF : Cell) ∉ ([0x0020, 0x002E, 0x005F, 0x003F, 0x003C, 0x003E, 0x0028, 0x0029, 0x007B, 0x007D, 0x0022,
      0x0027, 0x0021, 0x002C] : List Cell) := by decide

theorem witness_TokenWritesTheSymbols :
    (withArg 15).arg0 = (15#4).setWidth 64 ∧ (withArg 2).arg0 = (2#4).setWidth 64 := by decide

theorem witness_LookupInvertsTokens : ambiguous 13 = false ∧ ambiguous 14 = true := by decide

theorem witness_TokensRecoverTheCharacter : (nibblesOf 0x1000).getLast? = some 1 := by decide

theorem witness_NextReturnsTheGenerator :
    (withArg 0xFFFFFFFF).arg0 = (0xFFFFFFFF#32).setWidth 64 := by decide

theorem witness_TransformPreconditions :
    (staged []).arg0 = 0 ∧ 16777216 < (withArg 16777217).arg0.toNat ∧ 134217728 < (withArg 134217729).arg0.toNat ∧
    (Instr.decode, 134217728) ∈
      [(Instr.encode, 16777216), (Instr.decode, 134217728), (Instr.hashenc, 16777216)] := by decide

theorem witness_EncodePayloadIsEncodedStream :
    (0 < (staged [0x41]).arg0.toNat ∧ (staged [0x41]).arg0.toNat ≤ 16777216) ∧
    (withArg 16777216).arg0.toNat = 16777216 ∧ 1 ≤ (staged [0x41]).cap.toNat := by decide

theorem witness_EncodeLengthLaw :
    0 < (staged [0xEEEE]).arg0.toNat ∧ (staged [0xEEEE]).arg0.toNat ≤ 16777216 := by decide

theorem witness_ZeroCharactersEncodeAsSpaces :
    0 < (staged [0, 0]).arg0.toNat ∧ (staged [0, 0]).arg0.toNat ≤ 16777216 ∧
    ∀ i, i < (staged [0, 0]).arg0.toNat → inCell (staged [0, 0]) i = 0 := by decide

theorem witness_DecodePayloadIsDecodedText :
    0 < (staged [0x2E, 0x20, 0x5F]).arg0.toNat ∧ (staged [0x2E, 0x20, 0x5F]).arg0.toNat ≤ 134217728 ∧
    decodedText (inputCells (staged [0x2E, 0x20, 0x5F])) = .ok [0x0002] ∧
    1 ≤ (staged [0x2E, 0x20, 0x5F]).cap.toNat := ⟨by decide, by decide, rfl, by decide⟩

theorem witness_DecodeReportsFirstFailure :
    0 < (staged [0x20, 0x2E]).arg0.toNat ∧ (staged [0x20, 0x2E]).arg0.toNat ≤ 134217728 ∧
    decodedText (inputCells (staged [0x20, 0x2E])) = .error .cannotDecode ∧
    decodedText (inputCells (staged [0x2E, 0x20, 0x41])) = .error .tooLarge := ⟨by decide, by decide, rfl, rfl⟩

theorem witness_ZeroDotPrefix :
    (inCell (staged [0x58]) 0 ≠ 0x002E ∧ (staged [0x58]).arg0.toNat = 1) ∧
    (inCell (staged [0x20, 0x2E]) 0 ≠ 0x002E ∧ 1 < (staged [0x20, 0x2E]).arg0.toNat ∧
      (staged [0x20, 0x2E]).arg0.toNat ≤ 134217728) := by decide

theorem witness_DecodeShrinksToAThird :
    ∃ t, exec .decode (staged [0x2E, 0x20, 0x5F]) = .next t ∧ t.status = 1 ∧ t.payloadLen = 1 :=
  ⟨_, rfl, by decide, by decide⟩

theorem witness_DecodeInvertsEncode :
    (0 < (staged [0x02]).arg0.toNat ∧ (staged [0x02]).arg0.toNat ≤ 16777216 ∧
      (inputCells (staged [0x02])).all (fun c => c != 0) = true ∧
      (encodedStream (inputCells (staged [0x02]))).length ≤ 134217728) ∧
    result (exec .encode (staged [0x02])) = (1, 0, inputCells (staged [0x2E, 0x20, 0x5F])) ∧
    (after (exec .encode (staged [0x02]))).payloadLen = (staged [0x2E, 0x20, 0x5F]).arg0 :=
  ⟨by decide, by decide, by decide⟩

theorem witness_HashencPayloadIsHashedStream :
    0 < (staged [0x41]).arg0.toNat ∧ (staged [0x41]).arg0.toNat ≤ 16777216 ∧ 1 ≤ (staged [0x41]).cap.toNat := by decide

theorem witness_HashencLengthLaw :
    0 < (staged [0xFFFF]).arg0.toNat ∧ (staged [0xFFFF]).arg0.toNat ≤ 16777216 := by decide

theorem witness_TransformsDependOnInputOnly :
    ∃ t t', exec .encode (staged [0x02]) = .next t ∧
      exec .encode { staged [0x02] with cap := 1, bnum := 7 } = .next t' ∧
      ({ staged [0x02] with cap := 1, bnum := 7 }).arg0 = (staged [0x02]).arg0 ∧
      ∀ a, a < (staged [0x02]).arg0.toNat →
        inCell { staged [0x02] with cap := 1, bnum := 7 } a = inCell (staged [0x02]) a :=
  ⟨_, _, rfl, rfl, rfl, fun _ _ => rfl⟩

theorem witness_ReleaseReturnsToIdle : (doneWith []).state = .done ∧ State.reset.state ≠ .done := by decide

theorem witness_StatusesOfEachCommand : ∃ t, exec .token (withArg 16) = .next t := ⟨_, rfl⟩

theorem witness_CommandsNeverWriteTheHostsSide : ∃ t, exec .append (withArg 5) = .next t := ⟨_, rfl⟩

theorem witness_RegisterMapReads :
    ([0, 1, 2, 3, 4, 5, 6, 7, 8, 9, 10, 11, 15, 16, 31, 32, 47, 48].all fun n =>
      (doneWith [.readReg n]).inputs = [.readReg n] && (doneWith [.readReg n]).state = .done) = true ∧
    ({ State.reset with inputs := [.readReg 2] }).state = .idle := by decide

theorem witness_RegisterMapWrites :
    ([1, 2, 31, 32, 47, 48].all fun n =>
      (doneWith [.writeReg n 0x141]).inputs = [.writeReg n 0x141] && (doneWith [.writeReg n 0x141]).state = .done &&
      ({ State.reset with inputs := [.writeReg n 0x141] }).state = .idle &&
      (busyWith 0x1 [.writeReg n 0x141]).state = .busy) = true := by decide

theorem witness_BusyAdmitsOnlyStateReads :
    (busyWith 0x1 [.writeReg 0 0xF]).state = .busy ∧ (busyWith 0x1 [.readReg 2]).state = .busy ∧
    (busyWith 0x1 [.readReg 2]).inputs = [.readReg 2] := by decide

theorem witness_PayloadWindow :
    (doneWith [.readOut 0]).inputs = [.readOut 0] ∧ (doneWith [.readOut 0]).state = .done ∧
    (payload (doneWith [.readOut 0]))[0]? = some 0x41 := by decide

theorem witness_ResetEventValues : (busyWith 0x1 [.reset]).inputs = [.reset] := by decide

theorem witness_StepKeepsInvariant : Inv State.reset ∧ ∃ t, step State.reset = .next t := by
  refine ⟨⟨⟨List.Pairwise.nil, fun i => ?_, ?_, ?_, ?_, ?_, ?_⟩, ⟨.inr (.inl rfl), ?_, fun _ => rfl, fun _ => rfl⟩,
    List.Pairwise.nil, ?_, fun w h => ?_⟩, _, rfl⟩
  · simp [State.reset]
  · decide
  · decide
  · decide
  · decide
  · decide
  · decide
  · decide
  · cases h

theorem witness_OnlyInputChangesAreRefused :
    step { busyWith 0x1 [.writeIn 0 7] with arg0 := 1 } = .refused .inputChangedWhileBusy := rfl

theorem witness_KeepingTheRulesNeverStops :
    ([.readReg 2, .writeReg 0 1, .writeReg 1 5, .writeReg 32 5, .writeReg 47 5, .readIn 0, .writeIn 0 7, .reset,
      .engine].all fun e => hostKeepsRules e State.reset) = true ∧
    hostKeepsRules (.readOut 0) (doneWith []) = true ∧ hostKeepsRules (.writeReg 0 0xF) (doneWith []) = true ∧
    hostKeepsRules (.readReg 2) (busyWith 1 []) = true := by decide

theorem witness_EveryAcceptedCommandCompletes :
    Inv (busyWith 0x1 [.readReg 2, .engine]) ∧ (busyWith 0x1 [.readReg 2, .engine]).state = .busy ∧
    ∀ e ∈ (busyWith 0x1 [.readReg 2, .engine]).inputs, e ≠ .reset ∧ ∀ i v, e ≠ .writeIn i v := by
  refine ⟨⟨⟨List.Pairwise.nil, fun i => ?_, ?_, ?_, ?_, ?_, ?_⟩, ⟨.inr (.inl rfl), ?_, fun _ => rfl, fun _ => rfl⟩,
    List.Pairwise.nil, ?_, fun w h => ?_⟩, rfl, ?_⟩
  · simp [busyWith, State.reset]
  · decide
  · decide
  · decide
  · decide
  · decide
  · decide
  · decide
  · cases h
    decide
  · simp [busyWith]

theorem witness_QuietWithoutTheHost :
    (State.reset.inputs = [] ∧ State.reset.state ≠ .busy) ∧ ((doneWith []).inputs = [] ∧ (doneWith []).state ≠ .busy) := by
  decide

theorem witness_InputChangesUnderATransformAreRefused :
    ∃ s, s = { busyWith 0x3 [.writeIn 4 7] with arg0 := 5 } ∧ s.inputs = [.writeIn 4 7] ∧ TransformHeld s ∧
      4 < s.arg0.toNat :=
  ⟨_, rfl, rfl, ⟨rfl, 0x3, rfl, .inr (.inr rfl)⟩, by decide⟩

theorem witness_InputWritesStoreOneCell :
    (∃ s, s = { State.reset with inputs := [.writeIn 0 7] } ∧ ¬(TransformHeld s ∧ 0 < s.arg0.toNat)) ∧
    (∃ s, s = { busyWith 0x3 [.writeIn 5 7] with arg0 := 5 } ∧ TransformHeld s ∧
      ¬(TransformHeld s ∧ 5 < s.arg0.toNat)) :=
  ⟨⟨_, rfl, fun h => absurd h.2 (by decide)⟩,
    ⟨_, rfl, ⟨rfl, 0x3, rfl, .inr (.inr rfl)⟩, fun h => absurd h.2 (by decide)⟩⟩

theorem witness_InputReadsReturnTheCell :
    ({ staged [0x41] with inputs := [.readIn 0] }).inputs = [.readIn 0] ∧
    ({ staged [0x41] with inputs := [.readIn 0] }).state ≠ .busy := by decide

end Sys2Proof.Tests
end

section
/-! PROOFS. The tables of the data encodings (spec/30_encoding.md): the inverse alphabet, the tokens and the escape
pairs. -/

namespace Sys2Proof.Proofs

open Sys2Proof.Machine Sys2Proof.Reference

/-! ### The inverse alphabet (R98) -/

/-- The cells that have an index: the first fourteen bytes of the alphabet, zero-extended (R98). -/
def indexedCells : List Cell := (List.range 14).map fun i => symbolCell (alpha (BitVec.ofNat 4 i))

/-- The table R98 prints. -/
theorem indexedCells_eq :
    indexedCells =
      [0x0020, 0x002E, 0x005F, 0x003F, 0x003C, 0x003E, 0x0028, 0x0029, 0x007B, 0x007D, 0x0022, 0x0027, 0x0021,
        0x002C] := by
  decide

/-- Below 14 no byte of the alphabet stands at an earlier index (R97). -/
theorem lookup_alpha_ofNat {i : Nat} (h : i < 14) :
    lookup (symbolCell (alpha (BitVec.ofNat 4 i))) = BitVec.ofNat 6 i := by
  have h14 : BitVec.ofNat 4 i ≠ 14 := by bv_omega
  have h15 : BitVec.ofNat 4 i ≠ 15 := by bv_omega
  rw [lookup_alpha, if_neg h14, if_neg h15]
  bv_omega

theorem map_lookup_indexedCells : indexedCells.map lookup = (List.range 14).map (BitVec.ofNat 6) := by
  rw [indexedCells, List.map_map]
  exact List.map_congr_left fun i hi => lookup_alpha_ofNat (List.mem_range.mp hi)

/-- Bytes 14 and 15 of the alphabet repeat bytes 0 and 1, so the first fourteen are all of them. -/
theorem symbolCell_alpha_mem (t : Nibble) : symbolCell (alpha t) ∈ indexedCells := by
  revert t
  decide

theorem lookup_eq_miss_of_notMem {c : Cell} (h : c ∉ indexedCells) : lookup c = lookupMiss :=
  lookup_eq_miss fun t hc => h (hc ▸ symbolCell_alpha_mem t)

/-- The miss value, read as a signed number. -/
theorem lookupMiss_toInt : lookupMiss.toInt = -1 := by decide

/-- Settles O17: the table's cells are the alphabet's first fourteen, and every other cell is no alphabet byte. -/
theorem inverseTableIsFirstMatch : Obligations.InverseTableIsFirstMatch := by
  unfold Obligations.InverseTableIsFirstMatch
  rw [← indexedCells_eq]
  refine ⟨map_lookup_indexedCells, fun c hc => ?_⟩
  rw [lookup_eq_miss_of_notMem hc, lookupMiss_toInt]

/-! ### The tokens (R100) -/

/-- The table R100 prints is the reference token of each nibble. -/
theorem tokenOf_eq_table (t : Nibble) :
    tokenOf t =
      ([[0x20, 0x20], [0x2E, 0x20], [0x5F], [0x3F], [0x3C], [0x3E], [0x28], [0x29], [0x7B], [0x7D], [0x22], [0x27],
        [0x21], [0x2C], [0x20, 0x2E], [0x2E, 0x2E]] : List (List Symbol)).getD t.toNat [] := by
  revert t
  decide

/-- From `K = 0`, what `TOK` holds below `K` is the token alone. -/
theorem token_tok_of_k_zero (t : Nibble) {s : State} (hk : s.k = 0) :
    (token t s).tok.toList.take (token t s).k.toNat = tokenOf t := by
  have hk0 : s.k.toNat = 0 := by rw [hk]; rfl
  obtain ⟨-, htok, -⟩ := token_spec t (s := s) (by omega)
  rw [htok, hk0, List.take_zero, List.nil_append]

/-- Settles O19: `token` leaves the reference token, and the table lists that. -/
theorem tokenTableIsComplete : Obligations.TokenTableIsComplete := by
  intro s t
  rw [token_tok_of_k_zero t rfl, tokenOf_eq_table]

/-! ### The escape pairs (R104) -/

theorem lookup_space : lookup 0x0020 = 0 := lookup_alpha 0

theorem lookup_dot : lookup 0x002E = 1 := lookup_alpha 1

/-- The first-match index of each symbol of a two-symbol token: 0 for a space, 1 for a dot. The first symbol is a
dot for odd `t`, the second for `t ≥ 8` (R100). -/
theorem lookup_token_symbols {t : Nibble} (ht : t ∈ ([0, 1, 14, 15] : List Nibble)) :
    lookup (symbolCell (alpha t)) = BitVec.ofNat 6 (t.toNat % 2) ∧
    lookup (symbolCell (alpha (t >>> 3))) = BitVec.ofNat 6 (t.toNat / 8) := by
  rw [lookup_alpha, lookup_alpha]
  revert t
  decide

/-- An ambiguous nibble is its lowest bit plus 14 times its highest: 0, 1, 14, 15. -/
theorem pairNibble_outer_bits {t : Nibble} (ht : t ∈ ([0, 1, 14, 15] : List Nibble)) :
    pairNibble ((BitVec.ofNat 6 (t.toNat % 2)).setWidth 1) (BitVec.ofNat 6 (t.toNat / 8)) = t := by
  revert t
  decide

/-- Settles O20: the four rows from the indexes of space and dot, the inversion from the indexes of a token's symbols. -/
theorem pairTableInvertsEscapes : Obligations.PairTableInvertsEscapes := by
  unfold Obligations.PairTableInvertsEscapes
  rw [lookup_space, lookup_dot]
  refine ⟨by decide, by decide, by decide, by decide, fun t ht => ?_⟩
  obtain ⟨hfirst, hsecond⟩ := lookup_token_symbols ht
  rw [hfirst, hsecond, pairNibble_outer_bits ht]

end Sys2Proof.Proofs
end

section
/-! PROOFS. The growable buffer (spec/40_buffer.md): LENGTH, what the doublings of a capacity come to, and single
appends. -/

namespace Sys2Proof.Proofs

open Sys2Proof.Machine Sys2Proof.Reference

/-- Settles O13: LENGTH is `RES0 <- LEN` and `finish(1)`. -/
theorem lengthReturnsLen : Obligations.LengthReturnsLen := by
  intro s
  rfl

/-! ### Counting the doublings of a capacity (R131, R135) -/

/-- `g` is the least number of doublings of `c0` that holds `required` cells. -/
def DoublingsFor (c0 required g : Nat) : Prop := required ≤ c0 * 2 ^ g ∧ ∀ g', g' < g → c0 * 2 ^ g' < required

theorem leastDoubling_iff {c0 required c : Nat} :
    LeastDoubling c0 required c ↔ ∃ g, c = c0 * 2 ^ g ∧ DoublingsFor c0 required g := by
  constructor
  · rintro ⟨g, rfl, hroom, hleast⟩
    exact ⟨g, rfl, hroom, hleast⟩
  · rintro ⟨g, rfl, hroom, hleast⟩
    exact ⟨g, rfl, hroom, hleast⟩

theorem doubledTo_iff {g : Nat} {s t : State} :
    DoubledTo g s t ↔ t.cap.toNat = s.cap.toNat * 2 ^ g ∧ DoublingsFor s.cap.toNat t.len.toNat g := by
  constructor
  · rintro ⟨hcap, hroom, hleast⟩
    exact ⟨hcap, hcap ▸ hroom, hleast⟩
  · rintro ⟨hcap, hroom, hleast⟩
    exact ⟨hcap, hcap ▸ hroom, hleast⟩

theorem doublingsFor_zero {c required : Nat} (h : required ≤ c) : DoublingsFor c required 0 :=
  ⟨by simpa using h, fun _ hg' => absurd hg' (Nat.not_lt_zero _)⟩

/-- Growing in two goes doubles as often as growing in one: what the first go could not do without, the second, which
holds at least as many cells, cannot either. -/
theorem DoublingsFor.add {c0 need required g d : Nat} (h : DoublingsFor c0 need g) (hle : need ≤ required)
    (h' : DoublingsFor (c0 * 2 ^ g) required d) : DoublingsFor c0 required (g + d) := by
  obtain ⟨-, hleast⟩ := h
  obtain ⟨hroom', hleast'⟩ := h'
  refine ⟨by rw [Nat.pow_add, ← Nat.mul_assoc]; exact hroom', fun g' hg' => ?_⟩
  rcases Nat.lt_or_ge g' g with hlt | hge
  · exact lt_of_lt_of_le (hleast g' hlt) hle
  · have := hleast' (g' - g) (by omega)
    rwa [Nat.mul_assoc, ← Nat.pow_add, Nat.add_sub_cancel' hge] at this

/-- A cell more than fits is one doubling at most. -/
theorem DoublingsFor.le_one {c required d : Nat} (h : DoublingsFor c required d) (hle : required ≤ c * 2) : d ≤ 1 := by
  by_contra hd
  have := h.2 1 (by omega)
  omega

/-- All a successful reserve does to the capacity: the least number of doublings, in no reallocation or in one. -/
theorem bufReserve_doublings {n : Nat} {s t : State} (hcap : 1 ≤ s.cap.toNat) (h : bufReserve n s = .go t) :
    ∃ d, t.cap.toNat = s.cap.toNat * 2 ^ d ∧ DoublingsFor s.cap.toNat (s.len.toNat + n) d ∧
      (d = 0 ∧ t.grow = s.grow ∨ 1 ≤ d ∧ t.grow = s.grow + 1) := by
  rcases bufReserve_cases n s with ⟨_, he⟩ | ⟨_, hfit, he⟩ | ⟨hsafe, hlt, he⟩
  · rw [he] at h; cases h
  · rw [he] at h; cases h
    exact ⟨0, by simp, doublingsFor_zero hfit, .inl ⟨rfl, rfl⟩⟩
  · rw [he] at h; cases h
    obtain ⟨d, hd, hleast⟩ := leastDoubling_iff.mp (grownCap_least hcap hsafe)
    refine ⟨d, (grownCap_toNat hcap hlt hsafe).trans hd, hleast, .inr ⟨?_, rfl⟩⟩
    have hroom := hleast.1
    by_contra hd0
    obtain rfl : d = 0 := by omega
    omega

/-- Where the cells fit, a reserve changes nothing (R131). -/
theorem bufReserve_of_room {n : Nat} {s : State} (hsafe : s.len.toNat + n ≤ Config.maxSafeLen)
    (hroom : s.len.toNat + n ≤ s.cap.toNat) : bufReserve n s = .go s := by
  rcases bufReserve_cases n s with ⟨_, _⟩ | ⟨_, _, he⟩ | ⟨_, _, _⟩
  · omega
  · exact he
  · omega

/-! ### One append -/

/-- A count of reallocations grows by at most one, even where it wraps. -/
theorem toNat_succ_le (g : Word) : (g + 1).toNat ≤ g.toNat + 1 := by
  rw [BitVec.toNat_add]
  exact Nat.mod_le _ _

/-- `LEN` counts a stored cell: no length below 2^64 - 1 wraps (R63). -/
theorem storeCell_len_toNat {s : State} (v : Cell) (h : s.len.toNat < Config.maxSafeLen) :
    (storeCell v s).len.toNat = s.len.toNat + 1 := by
  have hsafe : Config.maxSafeLen = 2 ^ 53 - 1 := rfl
  rw [storeCell_len, BitVec.toNat_add]
  exact Nat.mod_eq_of_lt (by show s.len.toNat + 1 < 2 ^ 64; omega)

/-- Where `buf_append` goes on, it has reserved one cell and stored the value. -/
theorem bufAppend_go {v : Cell} {s t : State} (h : bufAppend v s = .go t) :
    ∃ u, bufReserve 1 s = .go u ∧ t = storeCell v u := by
  obtain ⟨u, hu, ht⟩ := Flow.bind_eq_go h
  exact ⟨u, hu, by cases ht; rfl⟩

/-- Storing a cell at `LEN` leaves the cells below it, and it becomes the last one. -/
theorem contents_storeCell {s : State} (v : Cell) (h : s.len.toNat < Config.maxSafeLen) :
    contents (storeCell v s) = contents s ++ [v] := by
  unfold contents
  rw [storeCell_len_toNat v h, List.range_succ, List.map_append]
  congr 1
  · refine List.map_congr_left fun i hi => ?_
    rw [outCell_storeCell, if_neg (by have := List.mem_range.mp hi; omega)]
  · simp [outCell_storeCell]

/-- What one append does to the buffer (R132). -/
theorem bufAppend_contents {v : Cell} {s t : State} (h : bufAppend v s = .go t) :
    contents t = contents s ++ [v] ∧ t.len.toNat = s.len.toNat + 1 := by
  obtain ⟨u, hu, rfl⟩ := bufAppend_go h
  obtain ⟨hsafe, hgo⟩ := bufReserve_go hu
  have hlen : u.len = s.len := by rw [hgo]
  have hlt : u.len.toNat < Config.maxSafeLen := by rw [hlen]; omega
  have hcont : contents u = contents s := by rw [hgo]; rfl
  exact ⟨by rw [contents_storeCell v hlt, hcont], by rw [storeCell_len_toNat v hlt, hlen]⟩

/-- An append is possible while the length is below `MAX_SAFE_LEN` (R132). -/
theorem bufAppend_total {s : State} (v : Cell) (h : s.len.toNat < Config.maxSafeLen) :
    ∃ t, bufAppend v s = .go t := by
  obtain ⟨u, hu⟩ := bufReserve_total (n := 1) (s := s) h
  exact ⟨storeCell v u, by simp [bufAppend, hu]⟩

/-- From `s0` to `s` the capacity has become the least doubling that holds the cells, one reallocation a doubling. -/
def DoubledOnceEach (s0 s : State) : Prop := ∃ g, DoubledTo g s0 s ∧ s.grow.toNat = g

theorem DoubledOnceEach.start {s0 s : State} (hcap : s.cap = s0.cap) (hlen : s.len = 0) (hgrow : s.grow = 0) :
    DoubledOnceEach s0 s :=
  ⟨0, doubledTo_iff.mpr ⟨by simp [hcap], doublingsFor_zero (by simp [hlen])⟩, by simp [hgrow]⟩

theorem DoubledOnceEach.congr {s0 s t : State} (h : DoubledOnceEach s0 s) (hcap : t.cap = s.cap)
    (hlen : t.len = s.len) (hgrow : t.grow = s.grow) : DoubledOnceEach s0 t := by
  unfold DoubledOnceEach DoubledTo at *
  rwa [hcap, hlen, hgrow]

/-- One append doubles the capacity at most once, and counts it if it does. -/
theorem DoubledOnceEach.append {s0 s t : State} {v : Cell} (hcap : 1 ≤ s0.cap.toNat) (h : DoubledOnceEach s0 s)
    (hgo : bufAppend v s = .go t) : DoubledOnceEach s0 t := by
  obtain ⟨g, hdoubled, hgrow⟩ := h
  obtain ⟨hcapg, hleast⟩ := doubledTo_iff.mp hdoubled
  obtain ⟨u, hu, rfl⟩ := bufAppend_go hgo
  obtain ⟨hsafe, -⟩ := bufReserve_go hu
  have hpow : 1 ≤ 2 ^ g := Nat.one_le_two_pow
  have hpos : 1 ≤ s.cap.toNat := by rw [hcapg]; exact Nat.mul_pos hcap hpow
  have hlecap : s.len.toNat ≤ s.cap.toNat := by rw [hcapg]; exact hleast.1
  obtain ⟨d, hcapd, hd, hgrown⟩ := bufReserve_doublings hpos hu
  have hd1 : d ≤ 1 := hd.le_one (by omega)
  refine ⟨g + d, doubledTo_iff.mpr ⟨?_, ?_⟩, ?_⟩
  · rw [storeCell_cap, hcapd, hcapg, Nat.pow_add, Nat.mul_assoc]
  · rw [(bufAppend_contents hgo).2]
    exact hleast.add (by omega) (hcapg ▸ hd)
  · rw [storeCell_grow]
    rcases hgrown with ⟨rfl, hsame⟩ | ⟨hd', hmore⟩
    · rw [hsame, hgrow]; rfl
    · have hbound : s.grow.toNat < 2 ^ 64 - 1 := by
        have hfull := hd.2 0 (by omega)
        have hg : g < 2 ^ g := Nat.lt_two_pow_self
        have hg' : 1 * 2 ^ g ≤ s.cap.toNat := by rw [hcapg]; exact Nat.mul_le_mul_right _ hcap
        have hmax : Config.maxSafeLen = 2 ^ 53 - 1 := rfl
        omega
      rw [hmore, BitVec.toNat_add, Nat.mod_eq_of_lt (by show s.grow.toNat + 1 < 2 ^ 64; omega), hgrow]
      show g + 1 = g + d
      omega

/-! ### A run of APPENDs (R110, R135) -/

/-- A zero-extended cell is a legal operand of APPEND. -/
theorem cellOperand_setWidth (v : Cell) : cellOperand (v.setWidth 64) = some v := by
  have hhigh : (v.setWidth 64).extractLsb' 16 48 = 0 := by ext i hi; simp
  have hlow : (v.setWidth 64).extractLsb' 0 16 = v :=
    BitVec.eq_of_toNat_eq (by simpa using v.isLt)
  rw [cellOperand, if_pos hhigh, hlow]

/-- APPEND of a cell (R132): it follows what the buffer holds, and the capacity doubles at most once. -/
theorem exec_append_spec {s0 s : State} {v : Cell} (harg : s.arg0 = v.setWidth 64) (hcap : 1 ≤ s0.cap.toNat)
    (hd : DoubledOnceEach s0 s) (hlen : s.len.toNat < Config.maxSafeLen) :
    ∃ t, exec .append s = .next t ∧ contents t = contents s ++ [v] ∧ t.len.toNat = s.len.toNat + 1 ∧
      DoubledOnceEach s0 t := by
  obtain ⟨u, hu⟩ := bufAppend_total v hlen
  obtain ⟨hcont, hulen⟩ := bufAppend_contents hu
  refine ⟨finish Config.stSuccess (res0Len u), ?_, hcont, hulen, (hd.append hcap hu).congr rfl rfl rfl⟩
  show execAppend s = _
  simp [execAppend, harg, cellOperand_setWidth, hu]

/-- Appending cells one at a time: they follow what the buffer holds, and each doubling is one reallocation. -/
theorem appendEach_spec (vs : List Cell) {s0 s : State} (hcap : 1 ≤ s0.cap.toNat) (hd : DoubledOnceEach s0 s)
    (hlen : s.len.toNat + vs.length ≤ Config.maxSafeLen) :
    ∃ t, appendEach vs s = .next t ∧ contents t = contents s ++ vs ∧ t.len.toNat = s.len.toNat + vs.length ∧
      DoubledOnceEach s0 t := by
  induction vs generalizing s with
  | nil => exact ⟨s, rfl, by simp, rfl, hd⟩
  | cons v rest ih =>
    rw [List.length_cons] at hlen
    obtain ⟨u, hu, hucont, hulen, hud⟩ :
        ∃ u, exec .append { s with arg0 := v.setWidth 64 } = .next u ∧ contents u = contents s ++ [v] ∧
          u.len.toNat = s.len.toNat + 1 ∧ DoubledOnceEach s0 u :=
      exec_append_spec rfl hcap (hd.congr rfl rfl rfl) (show s.len.toNat < _ by omega)
    obtain ⟨t, ht, htcont, htlen, htd⟩ := ih hud (by omega)
    refine ⟨t, by rw [appendEach, hu]; exact ht, ?_, ?_, htd⟩
    · rw [htcont, hucont, List.append_assoc]
      rfl
    · rw [htlen, hulen, List.length_cons]
      omega

/-- Settles O15, by induction on the list of cells. -/
theorem singleAppendsDoubleOnceEach : Obligations.SingleAppendsDoubleOnceEach := by
  intro vs s hlen hgrow hcap hbound
  have hlen0 : s.len.toNat = 0 := by simp [hlen]
  obtain ⟨t, hrun, hcont, htlen, g, hdoubled, hg⟩ :=
    appendEach_spec vs hcap (DoubledOnceEach.start rfl hlen hgrow) (by rw [hlen0, Nat.zero_add]; exact hbound)
  obtain ⟨hcapg, hroom, hleast⟩ := hdoubled
  rw [hlen0, Nat.zero_add] at htlen
  have hempty : contents s = [] := by simp [contents, hlen0]
  exact ⟨t, g, hrun, by rw [hcont, hempty, List.nil_append], htlen, hcapg, htlen ▸ hroom, htlen ▸ hleast, hg⟩

end Sys2Proof.Proofs
end

section
/-! PROOFS. The preconditions of the three transforms (R165, R180, R215). -/

namespace Sys2Proof.Proofs

open Sys2Proof.Machine Sys2Proof.Reference

/-- The empty input ends a transform before its body. -/
theorem transform_empty {limit : Nat} {body : State → Flow} {s : State} (h : s.arg0 = 0) :
    transform limit body s = .next (scrambleTok (finish Config.stEmpty (startTransform s))) := by
  rcases transformResult_cases limit body s with ⟨_, he⟩ | ⟨h', _⟩ | ⟨h', _⟩
  · rw [transform, he]
  · exact absurd h h'
  · exact absurd h h'

/-- An over-long input ends a transform before its body. -/
theorem transform_tooLarge {limit : Nat} {body : State → Flow} {s : State} (h : limit < s.arg0.toNat) :
    transform limit body s = .next (scrambleTok (raiseEntry .tooLarge (startTransform s))) := by
  rcases transformResult_cases limit body s with ⟨h', _⟩ | ⟨_, _, he⟩ | ⟨_, h', _⟩
  · simp [h'] at h
  · rw [transform, he]
  · omega

/-- The three commands with a length limit are transforms with that limit. -/
theorem exec_eq_transform {i : Instr} {limit : Nat}
    (h : (i, limit) ∈ [(Instr.encode, 16777216), (Instr.decode, 134217728), (Instr.hashenc, 16777216)]) :
    ∃ body, ∀ s, exec i s = transform limit body s := by
  simp only [List.mem_cons, Prod.mk.injEq, List.not_mem_nil, or_false] at h
  rcases h with ⟨rfl, rfl⟩ | ⟨rfl, rfl⟩ | ⟨rfl, rfl⟩
  · exact ⟨_, fun _ => rfl⟩
  · exact ⟨_, fun _ => rfl⟩
  · exact ⟨_, fun _ => rfl⟩

/-- What a transform has changed before its body: nothing of the HOST's and no working register but `CUR` and
`IN_LEN`. -/
theorem startTransform_frame (s : State) :
    SameHost s (startTransform s) ∧ SameEncodeWork s (startTransform s) ∧ SameDecodeWork s (startTransform s) ∧
      SameHashWork s (startTransform s) := by
  simp [SameHost, SameEncodeWork, SameDecodeWork, SameHashWork]

/-- Settles O27: both tests come before the body, on the state `startTransform` leaves. -/
theorem transformPreconditions : Obligations.TransformPreconditions := by
  intro i limit s hi
  obtain ⟨body, hexec⟩ := exec_eq_transform hi
  obtain ⟨hhost, hencode, hdecode, hhash⟩ := startTransform_frame s
  refine ⟨fun h0 => ?_, fun hl => ?_⟩
  · exact ⟨_, (hexec s).trans (transform_empty h0), ⟨rfl, rfl, rfl, rfl, rfl⟩, rfl, rfl, rfl, hhost, hencode, hdecode,
      hhash⟩
  · exact ⟨_, (hexec s).trans (transform_tooLarge hl), ⟨rfl, rfl, rfl, rfl, rfl⟩, rfl, rfl, rfl, hhost, hencode,
      hdecode, hhash⟩

end Sys2Proof.Proofs
end

section
/-! PROOFS. The layer the three transforms share: the part of the input not yet read, the output built so far with the
room reserved for it, and a character's nibbles one after the other. -/

namespace Sys2Proof.Proofs

open Sys2Proof.Machine Sys2Proof.Reference

/-! ### The input not yet read (R26, R62) -/

/-- `IN[CUR .. IN_LEN-1]` is the list `text`. -/
structure Unread (s : State) (text : List Cell) : Prop where
  len : s.cur.toNat + text.length = s.inLen.toNat
  bound : s.inLen.toNat < 2 ^ 32
  cells : ∀ i, i < text.length → text[i]? = some (inCell s (s.cur.toNat + i))

/-- `Unread` reads only `CUR`, `IN_LEN` and `IN`. -/
theorem Unread.congr {s t : State} {text : List Cell} (h : Unread s text) (hcur : t.cur = s.cur)
    (hlen : t.inLen = s.inLen) (hinp : t.inp = s.inp) : Unread t text :=
  ⟨by rw [hcur, hlen]; exact h.len, by rw [hlen]; exact h.bound,
    fun i hi => by rw [hcur, inCell_congr hinp]; exact h.cells i hi⟩

theorem Unread.moreInput_nil {s : State} (h : Unread s []) : moreInput s = false := by
  have hlen := h.len
  simp only [List.length_nil, Nat.add_zero] at hlen
  simp [moreInput, hlen]

theorem Unread.moreInput_cons {s : State} {c : Cell} {rest : List Cell} (h : Unread s (c :: rest)) :
    moreInput s = true := by
  have hlen := h.len
  rw [List.length_cons] at hlen
  simp only [moreInput, decide_eq_true_eq]
  omega

theorem Unread.moreInput_of_ne_nil {s : State} {text : List Cell} (h : Unread s text) (hne : text ≠ []) :
    moreInput s = true := by
  obtain ⟨c, rest, rfl⟩ := List.exists_cons_of_ne_nil hne
  exact h.moreInput_cons

theorem Unread.nextCell_cons {s : State} {c : Cell} {rest : List Cell} (h : Unread s (c :: rest)) :
    nextCell s = c := by
  have hc := h.cells 0 (by simp)
  simpa [nextCell] using hc.symm

/-- The cursor passes the cell it reads. -/
theorem Unread.advance_cons {s : State} {c : Cell} {rest : List Cell} (h : Unread s (c :: rest)) :
    Unread (advance s) rest := by
  have hlen := h.len
  have hbound := h.bound
  rw [List.length_cons] at hlen
  have hcur : (advance s).cur.toNat = s.cur.toNat + 1 := by
    rw [advance_cur, BitVec.toNat_add]
    exact Nat.mod_eq_of_lt (by show s.cur.toNat + 1 < 2 ^ 32; omega)
  refine ⟨by rw [hcur, advance_inLen]; omega, hbound, fun i hi => ?_⟩
  have hc := h.cells (i + 1) (by rw [List.length_cons]; omega)
  rw [List.getElem?_cons_succ] at hc
  rw [hcur, inCell_congr (advance_inp s), hc, Nat.add_assoc, Nat.add_comm 1]

/-- Nothing is left to read exactly at the end of the input. -/
theorem Unread.eq_nil_iff {s : State} {text : List Cell} (h : Unread s text) :
    text = [] ↔ s.cur.toNat = s.inLen.toNat := by
  have hlen := h.len
  rw [← List.length_eq_zero_iff]
  omega

theorem length_inputCells (s : State) : (inputCells s).length = s.arg0.toNat := by simp [inputCells]

/-- A transform starts with its whole input unread (R42). -/
theorem startTransform_unread {s : State} (h : s.arg0.toNat < 2 ^ 32) : Unread (startTransform s) (inputCells s) := by
  refine ⟨by simp [length_inputCells], h, fun i hi => ?_⟩
  rw [length_inputCells] at hi
  simp [inputCells, hi, inCell]

/-! ### The output built so far, and the room reserved for more -/

/-- `OUT` holds `cs`; and its capacity, from `c0` on, is the least doubling that holds `need` cells, in at most as many
reallocations as doublings. -/
structure Reserved (c0 need : Nat) (cs : List Cell) (s : State) : Prop where
  holds : Holds s cs
  grown : 1 ≤ c0 → ∃ g, s.cap.toNat = c0 * 2 ^ g ∧ DoublingsFor c0 need g ∧ s.grow.toNat ≤ g

/-- The cells built so far are also all that the capacity was doubled for. -/
abbrev Built (c0 : Nat) (cs : List Cell) (s : State) : Prop := Reserved c0 cs.length cs s

/-- `Reserved` reads only the buffer. -/
theorem Reserved.congr {c0 need : Nat} {cs : List Cell} {s t : State} (h : Reserved c0 need cs s)
    (hout : t.out = s.out) (hlen : t.len = s.len) (hcap : t.cap = s.cap) (hgrow : t.grow = s.grow) :
    Reserved c0 need cs t :=
  ⟨h.holds.congr hout hlen, by rw [hcap, hgrow]; exact h.grown⟩

/-- A transform starts with nothing built, from the pooled capacity (R130). -/
theorem startTransform_built (s : State) : Built s.cap.toNat [] (startTransform s) :=
  ⟨startTransform_holds s, fun _ => ⟨0, by simp, doublingsFor_zero (Nat.zero_le _), by simp⟩⟩

/-- Reserving room for `n` cells more (R131). -/
theorem Reserved.reserve {c0 : Nat} {cs : List Cell} {s : State} (h : Built c0 cs s) (n : Nat)
    (hsafe : cs.length + n ≤ Config.maxSafeLen) :
    ∃ t, bufReserve n s = .go t ∧ Reserved c0 (cs.length + n) cs t ∧ BufferOnly s t := by
  obtain ⟨t, ht⟩ := bufReserve_total (n := n) (s := s) (by rw [h.holds.len]; exact hsafe)
  obtain ⟨-, hframe⟩ := bufReserve_go ht
  refine ⟨t, ht, ⟨h.holds.congr (by rw [hframe]) (by rw [hframe]), fun hc0 => ?_⟩, by rw [BufferOnly, hframe]⟩
  obtain ⟨g, hcap, hleast, hgrow⟩ := h.grown hc0
  have hpos : 1 ≤ s.cap.toNat := by rw [hcap]; exact Nat.mul_pos hc0 Nat.one_le_two_pow
  obtain ⟨d, hcapd, hd, hgrown⟩ := bufReserve_doublings hpos ht
  rw [h.holds.len, hcap] at hd
  refine ⟨g + d, by rw [hcapd, hcap, Nat.pow_add, Nat.mul_assoc], hleast.add (Nat.le_add_right _ _) hd, ?_⟩
  rcases hgrown with ⟨_, hsame⟩ | ⟨_, hmore⟩
  · rw [hsame]; omega
  · rw [hmore]; have := toNat_succ_le s.grow; omega

/-- Appending a cell in the room reserved for it: no further growth (R132). -/
theorem Reserved.append {c0 need : Nat} {cs : List Cell} {s : State} (h : Reserved c0 need cs s) (v : Cell)
    (hroom : cs.length + 1 ≤ need) (hsafe : need ≤ Config.maxSafeLen) :
    ∃ t, bufAppend v s = .go t ∧ Reserved c0 need (cs ++ [v]) t ∧ BufferOnly s t := by
  obtain ⟨t, ht, hholds, hframe⟩ := bufAppend_holds h.holds v (by omega)
  refine ⟨t, ht, ⟨hholds, fun hc0 => ?_⟩, hframe⟩
  obtain ⟨g, hcap, hleast, hgrow⟩ := h.grown hc0
  have hfit : s.len.toNat + 1 ≤ s.cap.toNat := by rw [h.holds.len, hcap]; exact hroom.trans hleast.1
  have hsame := bufReserve_of_room (n := 1) (by rw [h.holds.len]; omega) hfit
  obtain rfl : storeCell v s = t := by simpa [bufAppend, hsame] using ht
  exact ⟨g, hcap, hleast, hgrow⟩

/-- Appending one value `n` times in the room reserved for it. -/
theorem Reserved.appendTimes {c0 need : Nat} (n : Nat) {cs : List Cell} {s : State} (h : Reserved c0 need cs s)
    (v : Cell) (hroom : cs.length + n ≤ need) (hsafe : need ≤ Config.maxSafeLen) :
    ∃ t, bufAppendTimes n v s = .go t ∧ Reserved c0 need (cs ++ List.replicate n v) t ∧ BufferOnly s t := by
  induction n generalizing s cs with
  | zero => exact ⟨s, rfl, by simpa using h, BufferOnly.refl s⟩
  | succ n ih =>
    obtain ⟨u, hu, hub, huf⟩ := h.append v (by omega) hsafe
    obtain ⟨t, ht, htb, htf⟩ := ih hub (by simp; omega)
    refine ⟨t, by simp [bufAppendTimes, hu, ht], ?_, huf.trans htf⟩
    simpa [List.replicate_succ] using htb

/-- Storing cells changes neither the capacity nor its count. -/
theorem storeCells_cap_grow (vs : List Cell) (s : State) :
    (storeCells vs s).cap = s.cap ∧ (storeCells vs s).grow = s.grow := by
  induction vs generalizing s with
  | nil => exact ⟨rfl, rfl⟩
  | cons v rest ih => exact ih (storeCell v s)

/-- Appending a span of `TOK` in the room reserved for it (R133). -/
theorem Reserved.appendSpan {c0 need : Nat} {cs : List Cell} {s : State} (h : Reserved c0 need cs s) (count : Nat)
    (hroom : cs.length + count ≤ need) (hsafe : need ≤ Config.maxSafeLen) :
    ∃ t, bufAppendSpan count s = .go t ∧ Reserved c0 need (cs ++ tokCells s count) t ∧ BufferOnly s t := by
  obtain ⟨t, ht, hholds, hframe⟩ := bufAppendSpan_holds h.holds count (by omega)
  refine ⟨t, ht, ⟨hholds, fun hc0 => ?_⟩, hframe⟩
  obtain ⟨g, hcap, hleast, hgrow⟩ := h.grown hc0
  have hfit : s.len.toNat + count ≤ s.cap.toNat := by rw [h.holds.len, hcap]; exact hroom.trans hleast.1
  have hsame := bufReserve_of_room (n := count) (by rw [h.holds.len]; omega) hfit
  obtain rfl : storeCells (tokCells s count) s = t := by simpa [bufAppendSpan, hsame] using ht
  obtain ⟨hcap', hgrow'⟩ := storeCells_cap_grow (tokCells s count) s
  exact ⟨g, by rw [hcap', hcap], hleast, by rw [hgrow']; exact hgrow⟩

/-- What was built, in the words of R135 (d) and (e). -/
theorem Reserved.doubledTo {s t : State} {cs : List Cell} (h : Built s.cap.toNat cs t) (hcap : 1 ≤ s.cap.toNat) :
    ∃ g, DoubledTo g s t ∧ t.grow.toNat ≤ g := by
  obtain ⟨g, hcapg, hleast, hgrow⟩ := h.grown hcap
  exact ⟨g, doubledTo_iff.mpr ⟨hcapg, by rw [h.holds.len]; exact hleast⟩, hgrow⟩

/-! ### Success of a transform (R250) -/

/-- The state in which a transform ends whose body went on to `t`. -/
def succeeded (t : State) : State := scrambleTok (finish Config.stSuccess t)

/-- A body that goes on, within the length limit, is a success. -/
theorem transform_succeeds {limit : Nat} {body : State → Flow} {s t : State} (h0 : 0 < s.arg0.toNat)
    (hl : s.arg0.toNat ≤ limit) (h : body (startTransform s) = .go t) :
    transform limit body s = .next (succeeded t) :=
  transform_go (fun harg => by simp [harg] at h0) hl h

theorem succeeded_completed {t : State} (h : t.res0 = 0) : Completed (succeeded t) 1 (succeeded t).len 0 :=
  ⟨rfl, rfl, h, rfl, rfl⟩

theorem succeeded_payload {t : State} {cs : List Cell} (h : Holds t cs) : payload (succeeded t) = cs :=
  Holds.payload_eq (s := succeeded t) (h.congr rfl rfl) rfl

/-! ### The nibbles of a character (R66, R99) -/

/-- Dropping the low nibble moves every other one down (R150). -/
theorem nibbleAt_shift (c : Cell) (j : Nat) : nibbleAt (c >>> 4) j = nibbleAt c (j + 1) := by
  ext i hi
  simp only [nibbleAt, BitVec.getElem_extractLsb', BitVec.getLsbD_ushiftRight]
  congr 1
  omega

/-- What is left of a character without its low nibble (R150). -/
theorem toNat_dropNibble (c : Cell) : (c >>> 4).toNat = c.toNat / 16 := by
  rw [BitVec.toNat_ushiftRight, Nat.shiftRight_eq_div_pow]

theorem nibblesOf_zero : nibblesOf 0 = [] := rfl

/-- The nibbles of a character: the lowest, then those of the rest. -/
theorem nibblesOf_cons {c : Cell} (h : c ≠ 0) : nibblesOf c = nibbleAt c 0 :: nibblesOf (c >>> 4) := by
  have hpos : c.toNat ≠ 0 := fun h0 => h (BitVec.eq_of_toNat_eq h0)
  have hlt := c.isLt
  have h0 : c.toNat / 16 = 0 ↔ c.toNat < 0x10 := by omega
  have h1 : c.toNat / 16 < 0x10 ↔ c.toNat < 0x100 := by omega
  have h2 : c.toNat / 16 < 0x100 ↔ c.toNat < 0x1000 := by omega
  have h3 : c.toNat / 16 < 0x1000 := by omega
  simp only [nibblesOf, toNat_dropNibble, nibbleAt_shift, if_neg hpos, h0, h1, h2, h3, if_true]
  split_ifs <;> rfl

theorem length_nibblesOf_le (c : Cell) : (nibblesOf c).length ≤ 4 := by
  unfold nibblesOf
  split_ifs <;> simp

end Sys2Proof.Proofs
end

section
/-! PROOFS. ENCODE (spec/42_canonical_encode.md): the nibble loop fills `TOK` with the tokens of the character, a record
is the Character Record of the reference, and the character loop writes the Encoded Stream. -/

namespace Sys2Proof.Proofs

open Sys2Proof.Machine Sys2Proof.Reference

/-! ### The nibble loop (R150, R151, R166) -/

/-- Only what the nibble loop works on differs: `CH`, `T`, `TOK` and `K`. -/
def NibblesOnly (s t : State) : Prop := t = { s with ch := t.ch, t := t.t, tok := t.tok, k := t.k }

theorem NibblesOnly.trans {s t u : State} (h : NibblesOnly s t) (h' : NibblesOnly t u) : NibblesOnly s u := by
  unfold NibblesOnly at *
  rw [h', h]

theorem length_tokenOf_le (t : Nibble) : (tokenOf t).length ≤ 2 := by
  rw [tokenOf_length]
  split <;> decide

theorem nibblesOnly_of_tokOnly {s t : State} (h : TokOnly s t) : NibblesOnly s t := by
  unfold NibblesOnly
  rw [h]

/-- One pass of the nibble loop: the low nibble's token, and the nibble dropped. -/
def encodePass (s : State) : State := dropNibble (token (loadNibble s).t (loadNibble s))

theorem encodeNibbles_of_zero (fuel : Nat) {s : State} (h : s.ch = 0) : encodeNibbles fuel s = s := by
  cases fuel with
  | zero => rfl
  | succ fuel => rw [encodeNibbles, if_pos h]

theorem encodeNibbles_of_ne (fuel : Nat) {s : State} (h : s.ch ≠ 0) :
    encodeNibbles (fuel + 1) s = encodeNibbles fuel (encodePass s) := by
  rw [encodeNibbles, if_neg h]
  rfl

theorem encodePass_spec {s : State} (h : s.k.toNat < 15) :
    (encodePass s).ch = s.ch >>> 4 ∧
    (encodePass s).k.toNat = s.k.toNat + (tokenOf (nibbleAt s.ch 0)).length ∧
    (encodePass s).tok.toList.take (encodePass s).k.toNat =
      s.tok.toList.take s.k.toNat ++ tokenOf (nibbleAt s.ch 0) ∧
    NibblesOnly s (encodePass s) := by
  have hload : NibblesOnly s (loadNibble s) := rfl
  have hdrop : NibblesOnly (token (loadNibble s).t (loadNibble s)) (encodePass s) := rfl
  obtain ⟨hk, htok, hframe⟩ := token_spec (loadNibble s).t (s := loadNibble s) h
  have hch : (token (loadNibble s).t (loadNibble s)).ch = s.ch := by rw [hframe]; rfl
  exact ⟨by rw [encodePass, dropNibble_ch, hch], hk, htok, hload.trans ((nibblesOnly_of_tokOnly hframe).trans hdrop)⟩

/-- The nibble loop appends the tokens of what is left in `CH` to `TOK`, given passes enough and room for them. -/
theorem encodeNibbles_spec (fuel : Nat) {s : State} (hch : s.ch.toNat < 16 ^ fuel) (hk : s.k.toNat + 2 * fuel ≤ 16) :
    (encodeNibbles fuel s).ch = 0 ∧
    (encodeNibbles fuel s).k.toNat = s.k.toNat + ((nibblesOf s.ch).flatMap tokenOf).length ∧
    (encodeNibbles fuel s).tok.toList.take (encodeNibbles fuel s).k.toNat =
      s.tok.toList.take s.k.toNat ++ (nibblesOf s.ch).flatMap tokenOf ∧
    NibblesOnly s (encodeNibbles fuel s) := by
  induction fuel generalizing s with
  | zero =>
    have h0 : s.ch = 0 := BitVec.eq_of_toNat_eq (by simpa using hch)
    rw [encodeNibbles_of_zero 0 h0, h0, nibblesOf_zero]
    exact ⟨rfl, rfl, (List.append_nil _).symm, rfl⟩
  | succ fuel ih =>
    by_cases h0 : s.ch = 0
    · rw [encodeNibbles_of_zero _ h0, h0, nibblesOf_zero]
      exact ⟨rfl, rfl, (List.append_nil _).symm, rfl⟩
    · obtain ⟨hpch, hpk, hptok, hpframe⟩ := encodePass_spec (s := s) (by omega)
      have htwo := length_tokenOf_le (nibbleAt s.ch 0)
      have hlt : (encodePass s).ch.toNat < 16 ^ fuel := by
        rw [hpch, toNat_dropNibble]
        rw [Nat.pow_succ] at hch
        omega
      obtain ⟨hdone, hk', htok', hframe⟩ := ih hlt (by omega)
      rw [encodeNibbles_of_ne fuel h0, nibblesOf_cons h0, List.flatMap_cons, ← hpch, List.length_append,
        ← List.append_assoc, ← Nat.add_assoc, ← hpk, ← hptok]
      exact ⟨hdone, hk', htok', hpframe.trans hframe⟩

/-- From `K = 0` the nibble loop leaves the body of the character's record in `TOK`, and its length in `K`. -/
theorem encodeNibbles_bodyOf {s : State} (hk : s.k = 0) :
    (encodeNibbles 4 s).k.toNat = (bodyOf s.ch).length ∧
    tokCells (encodeNibbles 4 s) (encodeNibbles 4 s).k.toNat = bodyOf s.ch ∧ NibblesOnly s (encodeNibbles 4 s) := by
  have hk0 : s.k.toNat = 0 := by simp [hk]
  obtain ⟨-, hlen, htok, hframe⟩ := encodeNibbles_spec 4 s.ch.isLt (by omega)
  rw [hk0, Nat.zero_add] at hlen
  rw [hk0, List.take_zero, List.nil_append] at htok
  exact ⟨by rw [hlen, bodyOf, List.length_map], by rw [tokCells, htok, bodyOf], hframe⟩

/-! ### One record (R101, R166) -/

theorem length_flatMap_le {α β : Type} (f : α → List β) (bound : Nat) (l : List α)
    (h : ∀ x ∈ l, (f x).length ≤ bound) : (l.flatMap f).length ≤ bound * l.length := by
  induction l with
  | nil => simp
  | cons x rest ih =>
    have hx := h x (by simp)
    have hrest := ih fun y hy => h y (by simp [hy])
    rw [List.flatMap_cons, List.length_append, List.length_cons, Nat.mul_succ]
    omega

theorem length_bodyOf_le (c : Cell) : (bodyOf c).length ≤ 8 := by
  have htok := length_flatMap_le tokenOf 2 (nibblesOf c) fun t _ => length_tokenOf_le t
  have hnib := length_nibblesOf_le c
  rw [bodyOf, List.length_map]
  omega

theorem length_record (c : Cell) : (record c).length = 2 * (bodyOf c).length + 1 := by
  rw [record, List.length_append, List.length_replicate, List.length_cons]
  omega

/-- Only what ENCODE works on differs: `CUR`, the encoder's registers, `TOK` and the buffer. -/
def EncodeOnly (s t : State) : Prop :=
  t = { s with
    cur := t.cur, ch := t.ch, t := t.t, tok := t.tok, k := t.k, out := t.out, len := t.len, cap := t.cap, grow := t.grow }

theorem EncodeOnly.refl (s : State) : EncodeOnly s s := rfl

theorem EncodeOnly.trans {s t u : State} (h : EncodeOnly s t) (h' : EncodeOnly t u) : EncodeOnly s u := by
  unfold EncodeOnly at *
  rw [h', h]

/-- From `K` symbols in `TOK` that are a body, step 3 of R166 appends `K` dots, a space and the body. -/
theorem emitRecord_spec {c0 : Nat} {cs body : List Cell} {s : State} (h : Built c0 cs s)
    (hk : s.k.toNat = body.length) (htok : tokCells s s.k.toNat = body)
    (hsafe : cs.length + (2 * body.length + 1) ≤ Config.maxSafeLen) :
    ∃ t, emitRecord s = .go t ∧ Built c0 (cs ++ (List.replicate body.length dotCell ++ spaceCell :: body)) t ∧
      BufferOnly s t := by
  obtain ⟨u, hu, hub, huf⟩ := h.reserve (2 * s.k.toNat + 1) (by omega)
  obtain ⟨v, hv, hvb, hvf⟩ := hub.appendTimes u.k.toNat dotCell (by rw [huf]; show _ + s.k.toNat ≤ _; omega) (by omega)
  have huk : u.k = s.k := by rw [huf]
  rw [huk, hk] at hvb
  obtain ⟨w, hw, hwb, hwf⟩ := hvb.append spaceCell (by simp; omega) (by omega)
  have hframe := huf.trans (hvf.trans hwf)
  have hwk : w.k.toNat = body.length := by rw [hframe]; exact hk
  have hwtok : tokCells w w.k.toNat = body := by rw [hframe]; exact htok
  obtain ⟨t, ht, htb, htf⟩ := hwb.appendSpan w.k.toNat (by simp; omega) (by omega)
  rw [hwtok] at htb
  refine ⟨t, ?_, ?_, hframe.trans htf⟩
  · simp [emitRecord, hu, hv, hw, ht]
  · have hcells : cs ++ List.replicate body.length dotCell ++ [spaceCell] ++ body =
        cs ++ (List.replicate body.length dotCell ++ spaceCell :: body) := by simp
    have hlen : cs.length + (2 * body.length + 1) =
        (cs ++ (List.replicate body.length dotCell ++ spaceCell :: body)).length := by simp; omega
    rwa [hcells, hlen] at htb

/-- Reading a character and running its nibble loop: `TOK` holds the body of the character's record, and the buffer is
as before. -/
theorem encodeChar_tokens {c0 : Nat} {cs rest : List Cell} {c : Cell} {s : State} (hin : Unread s (c :: rest))
    (h : Built c0 cs s) :
    ∃ u, encodeChar s = emitRecord u ∧ u.k.toNat = (bodyOf c).length ∧ tokCells u u.k.toNat = bodyOf c ∧
      Unread u rest ∧ Built c0 cs u ∧ EncodeOnly s u := by
  obtain ⟨hk, htok, hframe⟩ := encodeNibbles_bodyOf (s := { loadChar s with k := 0 }) rfl
  have hch : ({ loadChar s with k := 0 } : State).ch = c := hin.nextCell_cons
  rw [hch] at hk htok
  refine ⟨_, rfl, hk, htok, ?_, ?_, ?_⟩
  · exact hin.advance_cons.congr (by rw [hframe]; rfl) (by rw [hframe]; rfl) (by rw [hframe]; rfl)
  · exact h.congr (by rw [hframe]; rfl) (by rw [hframe]; rfl) (by rw [hframe]; rfl) (by rw [hframe]; rfl)
  · rw [EncodeOnly, hframe]; rfl

theorem encodeOnly_of_bufferOnly {s t : State} (h : BufferOnly s t) : EncodeOnly s t := by
  unfold EncodeOnly
  rw [h]

/-- `Unread` does not depend on the buffer. -/
theorem Unread.of_bufferOnly {s t : State} {text : List Cell} (hin : Unread s text) (h : BufferOnly s t) :
    Unread t text :=
  hin.congr (by rw [h]) (by rw [h]) (by rw [h])

/-- One pass of the character loop appends the record of the character it reads, and moves past it. -/
theorem encodeChar_spec {c0 : Nat} {cs rest : List Cell} {c : Cell} {s : State} (hin : Unread s (c :: rest))
    (h : Built c0 cs s) (hsafe : cs.length + 17 ≤ Config.maxSafeLen) :
    ∃ t, encodeChar s = .go t ∧ Unread t rest ∧ Built c0 (cs ++ record c) t ∧ EncodeOnly s t := by
  obtain ⟨u, hu, hk, htok, huin, hub, huf⟩ := encodeChar_tokens hin h
  have hbody := length_bodyOf_le c
  obtain ⟨t, ht, htb, htf⟩ := emitRecord_spec hub hk htok (by omega)
  exact ⟨t, hu.trans ht, huin.of_bufferOnly htf, htb, huf.trans (encodeOnly_of_bufferOnly htf)⟩

/-! ### The character loop (R166) -/

/-- The character loop appends the Encoded Stream of what it has still to read, and reads all of it. -/
theorem encodeLoop_spec {c0 : Nat} (text : List Cell) {cs : List Cell} {s : State} (hin : Unread s text)
    (h : Built c0 cs s) (hsafe : cs.length + 17 * text.length ≤ Config.maxSafeLen) :
    ∃ t, encodeLoop text.length s = .go t ∧ Unread t [] ∧ Built c0 (cs ++ encodedStream text) t ∧ EncodeOnly s t := by
  induction text generalizing s cs with
  | nil => exact ⟨s, rfl, hin, by simpa [encodedStream] using h, EncodeOnly.refl s⟩
  | cons c rest ih =>
    rw [List.length_cons] at hsafe
    obtain ⟨u, hu, huin, hub, huf⟩ := encodeChar_spec hin h (by omega)
    have hbody := length_bodyOf_le c
    obtain ⟨t, ht, htin, htb, htf⟩ := ih huin hub (by rw [List.length_append, length_record]; omega)
    refine ⟨t, ?_, htin, ?_, huf.trans htf⟩
    · rw [List.length_cons, encodeLoop, if_pos hin.moreInput_cons, hu]
      exact ht
    · rw [encodedStream, List.flatMap_cons, ← List.append_assoc]
      exact htb

/-- Settles O28: ENCODE runs the character loop over its whole input, from an empty buffer. -/
theorem encodePayloadIsEncodedStream : Obligations.EncodePayloadIsEncodedStream := by
  intro s hpos hlimit
  have hmax : Config.maxSafeLen = 2 ^ 53 - 1 := rfl
  obtain ⟨t, hrun, hin, hbuilt, hframe⟩ :=
    encodeLoop_spec (inputCells s) (startTransform_unread (by omega)) (startTransform_built s)
      (by rw [length_inputCells, List.length_nil]; omega)
  rw [length_inputCells, List.nil_append] at *
  have hlen : t.inLen = s.arg0 := by rw [hframe]; rfl
  refine ⟨succeeded t, transform_succeeds hpos hlimit hrun, succeeded_completed (by rw [hframe]; rfl),
    succeeded_payload hbuilt.holds, ?_, hlen, ?_, ?_, ?_, hbuilt.doubledTo⟩
  · rw [← hlen]
    exact hin.eq_nil_iff.mp rfl
  · rw [hframe]; exact ⟨rfl, rfl, rfl, rfl⟩
  · rw [hframe]; exact ⟨rfl, rfl, rfl, rfl, rfl, rfl, rfl⟩
  · rw [hframe]; exact ⟨rfl, rfl, rfl, rfl⟩

end Sys2Proof.Proofs
end

section
/-! PROOFS. DECODE (spec/43_canonical_decode.md): the scan of the dots, one body symbol, the body, and the record loop,
each against the reference decoder. -/

namespace Sys2Proof.Proofs

open Sys2Proof.Machine Sys2Proof.Reference

/-- Only what DECODE works on differs: `CUR`, the decoder's registers and the buffer. -/
def DecodeOnly (s t : State) : Prop :=
  t = { s with
    cur := t.cur, count := t.count, bi := t.bi, r := t.r, prev := t.prev, prevValid := t.prevValid, j := t.j,
    acc := t.acc, out := t.out, len := t.len, cap := t.cap, grow := t.grow }

theorem DecodeOnly.refl (s : State) : DecodeOnly s s := rfl

theorem DecodeOnly.trans {s t u : State} (h : DecodeOnly s t) (h' : DecodeOnly t u) : DecodeOnly s u := by
  unfold DecodeOnly at *
  rw [h', h]

theorem decodeOnly_of_bufferOnly {s t : State} (h : BufferOnly s t) : DecodeOnly s t := by
  unfold DecodeOnly
  rw [h]

/-- Only `CUR` and the decoder's registers differ: nothing of the buffer. -/
def RecordOnly (s t : State) : Prop :=
  t = { s with
    cur := t.cur, count := t.count, bi := t.bi, r := t.r, prev := t.prev, prevValid := t.prevValid, j := t.j,
    acc := t.acc }

theorem RecordOnly.trans {s t u : State} (h : RecordOnly s t) (h' : RecordOnly t u) : RecordOnly s u := by
  unfold RecordOnly at *
  rw [h', h]

theorem decodeOnly_of_recordOnly {s t : State} (h : RecordOnly s t) : DecodeOnly s t := by
  unfold DecodeOnly
  rw [h]

/-! ### The scan of the dots (R182) -/

/-- The scan counts the leading dots, and consumes them and the cell after them, whatever it is. -/
theorem scanDots_spec (fuel : Nat) {stream : List Cell} {s : State} (hin : Unread s stream)
    (hfuel : stream.length ≤ fuel) (hcount : s.count.toNat + stream.length < 2 ^ 32) :
    (scanDots fuel s).count.toNat = s.count.toNat + (stream.takeWhile (· == dotCell)).length ∧
    Unread (scanDots fuel s) (stream.drop ((stream.takeWhile (· == dotCell)).length + 1)) ∧
    RecordOnly s (scanDots fuel s) := by
  induction fuel generalizing s stream with
  | zero =>
    obtain rfl : stream = [] := List.length_eq_zero_iff.mp (by omega)
    exact ⟨rfl, hin, rfl⟩
  | succ fuel ih =>
    cases stream with
    | nil =>
      have hstop : scanDots (fuel + 1) s = s := by simp [scanDots, hin.moreInput_nil]
      rw [hstop]
      exact ⟨rfl, hin, rfl⟩
    | cons c rest =>
      rw [List.length_cons] at hfuel hcount
      by_cases hdot : c = dotCell
      · have hgo : scanDots (fuel + 1) s = scanDots fuel { advance s with count := s.count + 1 } := by
          simp [scanDots, hin.moreInput_cons, hin.nextCell_cons, hdot]
        have hcount' : (s.count + 1).toNat = s.count.toNat + 1 := by
          rw [BitVec.toNat_add]
          exact Nat.mod_eq_of_lt (by show s.count.toNat + 1 < 2 ^ 32; omega)
        obtain ⟨hdots, hin', hframe⟩ := ih (s := { advance s with count := s.count + 1 })
          (hin.advance_cons.congr rfl rfl rfl) (by omega) (by show (s.count + 1).toNat + _ < _; omega)
        rw [hgo, List.takeWhile_cons_of_pos (by simpa using hdot), List.length_cons]
        refine ⟨?_, hin', RecordOnly.trans (t := { advance s with count := s.count + 1 }) rfl hframe⟩
        rw [hdots]
        show (s.count + 1).toNat + _ = _
        omega
      · have hgo : scanDots (fuel + 1) s = advance s := by
          simp [scanDots, hin.moreInput_cons, hin.nextCell_cons, hdot]
        rw [hgo, List.takeWhile_cons_of_neg (by simpa using hdot)]
        exact ⟨rfl, hin.advance_cons, rfl⟩

/-- The scan from its start (R182): the number of dots in `COUNT`, and the cell that ends them consumed. -/
theorem readPrefix_spec {stream : List Cell} {s : State} (hin : Unread s stream) :
    (readPrefix s).count.toNat = (stream.takeWhile (· == dotCell)).length ∧
    Unread (readPrefix s) (stream.drop ((stream.takeWhile (· == dotCell)).length + 1)) ∧
    RecordOnly s (readPrefix s) := by
  have hlen := hin.len
  have hbound := hin.bound
  obtain ⟨hdots, hin', hframe⟩ := scanDots_spec s.inLen.toNat (s := { s with count := 0 })
    (hin.congr rfl rfl rfl) (by omega) (by show 0 + _ < _; omega)
  exact ⟨by rw [readPrefix, hdots]; exact Nat.zero_add _, hin',
    RecordOnly.trans (t := { s with count := 0 }) rfl hframe⟩

/-! ### The character being reassembled (R184, R185) -/

/-- One more nibble goes above those already there; from the fifth on it has no effect. -/
theorem assemble_append (ns : List Nibble) (v : Nibble) :
    assemble (ns ++ [v]) =
      if ns.length < 4 then assemble ns ||| (v.setWidth 16 <<< (4 * ns.length)) else assemble ns := by
  by_cases h : ns.length < 4
  · have htake : (ns ++ [v]).take 4 = ns ++ [v] := List.take_of_length_le (by simp; omega)
    have htake' : ns.take 4 = ns := List.take_of_length_le (by omega)
    rw [if_pos h, assemble, assemble, htake, htake']
    clear h htake htake'
    induction ns with
    | nil => simp
    | cons n rest ih =>
      rw [List.cons_append, List.foldr_cons, List.foldr_cons, ih, BitVec.shiftLeft_or_distrib, ← BitVec.shiftLeft_add,
        List.length_cons, Nat.mul_succ, BitVec.or_assoc]
  · rw [if_neg h, assemble, assemble, List.take_append_of_le_length (by omega)]

/-- `ACC` is the character of the nibbles emitted so far, and `J` is their number. -/
structure Emitted (ns : List Nibble) (s : State) : Prop where
  j : s.j.toNat = ns.length
  acc : s.acc = assemble ns

/-- `emit` adds a nibble in arrival order. -/
theorem Emitted.emit {ns : List Nibble} {s : State} (h : Emitted ns s) (v : Nibble) (hlt : ns.length + 1 < 2 ^ 32) :
    Emitted (ns ++ [v]) (emitNibble v s) := by
  constructor
  · show (s.j + 1).toNat = _
    rw [BitVec.toNat_add, h.j, List.length_append]
    exact Nat.mod_eq_of_lt hlt
  · rw [assemble_append, ← h.j, ← h.acc]
    rfl

/-- `Emitted` reads only `J` and `ACC`. -/
theorem Emitted.congr {ns : List Nibble} {s t : State} (h : Emitted ns s) (hj : t.j = s.j) (hacc : t.acc = s.acc) :
    Emitted ns t := ⟨by rw [hj]; exact h.j, by rw [hacc]; exact h.acc⟩

/-! ### One body symbol (R104, R184) -/

/-- `PREV_VALID` and `PREV` hold the index of the pending half, if there is one. -/
def Pending (p : Option Nat) (s : State) : Prop :=
  match p with
  | none => s.prevValid = false
  | some n => s.prevValid = true ∧ s.prev.toNat = n

/-- The reference index of a cell is what `lookup` answers for it, and is below 14. -/
theorem lookup_of_indexOf {c : Cell} {i : Nat} (h : indexOf c = some i) : lookup c = BitVec.ofNat 6 i ∧ i < 14 := by
  obtain ⟨hi, hc, -⟩ := List.findIdx?_eq_some_iff_getElem.mp h
  have hi14 : i < 14 := hi
  have hcells : streamCells = indexedCells := indexedCells_eq.symm
  have hmap : (indexedCells.map lookup)[i]? = some (BitVec.ofNat 6 i) := by
    rw [map_lookup_indexedCells]
    simp [hi14]
  refine ⟨?_, hi14⟩
  rw [← hcells, List.getElem?_map, List.getElem?_eq_getElem hi] at hmap
  rw [Option.map_some, eq_of_beq hc] at hmap
  exact Option.some.inj hmap

/-- The nibbles the symbol of index `r` completes, and the half pending after it (R104, R184). -/
def symbolEffect (p : Option Nat) (r : Nat) : List Nibble × Option Nat :=
  match p with
  | none => if r < 2 then ([], some r) else ([BitVec.ofNat 4 r], none)
  | some n =>
    if r < 2 then ([BitVec.ofNat 4 (n + 14 * r)], none) else ([BitVec.ofNat 4 n, BitVec.ofNat 4 r], none)

/-- The nibbles a body spells are those of its first symbol, then those of the rest. -/
theorem bodyNibbles_cons {p : Option Nat} {c : Cell} {body : List Cell} {ns : List Nibble}
    (h : bodyNibbles p (c :: body) = some ns) :
    ∃ r rest, indexOf c = some r ∧ bodyNibbles (symbolEffect p r).2 body = some rest ∧
      ns = (symbolEffect p r).1 ++ rest := by
  cases hr : indexOf c with
  | none => cases p <;> simp [bodyNibbles, hr] at h
  | some r =>
    refine ⟨r, ?_⟩
    cases p with
    | none =>
      by_cases h2 : r < 2
      · simp only [bodyNibbles, hr, h2, if_true] at h
        exact ⟨ns, rfl, by simpa [symbolEffect, h2] using h, by simp [symbolEffect, h2]⟩
      · simp only [bodyNibbles, hr, h2, if_false, Option.map_eq_some_iff] at h
        obtain ⟨rest, hrest, rfl⟩ := h
        exact ⟨rest, rfl, by simpa [symbolEffect, h2] using hrest, by simp [symbolEffect, h2]⟩
    | some n =>
      by_cases h2 : r < 2
      · simp only [bodyNibbles, hr, h2, if_true, Option.map_eq_some_iff] at h
        obtain ⟨rest, hrest, rfl⟩ := h
        exact ⟨rest, rfl, by simpa [symbolEffect, h2] using hrest, by simp [symbolEffect, h2]⟩
      · simp only [bodyNibbles, hr, h2, if_false, Option.map_eq_some_iff] at h
        obtain ⟨rest, hrest, rfl⟩ := h
        exact ⟨rest, rfl, by simpa [symbolEffect, h2] using hrest, by simp [symbolEffect, h2]⟩

/-- A half completes a pair or is remembered (R104, R184). -/
theorem bodyHalf_spec {p : Option Nat} {r : Nat} {done : List Nibble} {s : State} (hp : Pending p s)
    (hr : s.r = BitVec.ofNat 6 r) (h2 : r < 2) (he : Emitted done s) (hlt : done.length + 1 < 2 ^ 32) :
    Emitted (done ++ (symbolEffect p r).1) (bodyHalf s) ∧ Pending (symbolEffect p r).2 (bodyHalf s) := by
  have hrn : s.r.toNat = r := by
    rw [hr, BitVec.toNat_ofNat]
    exact Nat.mod_eq_of_lt (by omega)
  cases p with
  | none =>
    have hvalid : s.prevValid = false := hp
    simp only [bodyHalf, hvalid, Bool.false_eq_true, if_false, symbolEffect, h2, if_true, List.append_nil]
    refine ⟨he.congr rfl rfl, rfl, ?_⟩
    show (s.r.setWidth 1).toNat = r
    rw [BitVec.toNat_setWidth, hrn]
    exact Nat.mod_eq_of_lt h2
  | some n =>
    obtain ⟨hvalid, hprev⟩ : s.prevValid = true ∧ s.prev.toNat = n := hp
    have hnib : pairNibble s.prev s.r = BitVec.ofNat 4 (n + 14 * r) := by
      apply BitVec.eq_of_toNat_eq
      have hn := s.prev.isLt
      rw [pairNibble_toNat s.prev s.r (by omega), hprev, hrn, BitVec.toNat_ofNat]
      omega
    simp only [bodyHalf, hvalid, if_true, symbolEffect, h2, hnib]
    exact ⟨(he.emit _ hlt).congr rfl rfl, rfl⟩

/-- A direct symbol flushes a pending half first (R184). -/
theorem bodyDirect_spec {p : Option Nat} {r : Nat} {done : List Nibble} {s : State} (hp : Pending p s)
    (hr : s.r = BitVec.ofNat 6 r) (h2 : ¬r < 2) (he : Emitted done s) (hlt : done.length + 2 < 2 ^ 32) :
    Emitted (done ++ (symbolEffect p r).1) (bodyDirect s) ∧ Pending (symbolEffect p r).2 (bodyDirect s) := by
  have hnib : s.r.setWidth 4 = BitVec.ofNat 4 r := by
    rw [hr]
    apply BitVec.eq_of_toNat_eq
    simp only [BitVec.toNat_setWidth, BitVec.toNat_ofNat]
    omega
  cases p with
  | none =>
    have hvalid : s.prevValid = false := hp
    simp only [bodyDirect, hvalid, Bool.false_eq_true, if_false, symbolEffect, h2, hnib]
    exact ⟨he.emit _ (by omega), hvalid⟩
  | some n =>
    obtain ⟨hvalid, hprev⟩ : s.prevValid = true ∧ s.prev.toNat = n := hp
    have hflush : flushNibble s.prev = BitVec.ofNat 4 n := by
      apply BitVec.eq_of_toNat_eq
      rw [flushNibble, BitVec.toNat_setWidth, hprev, BitVec.toNat_ofNat]
    have hflushed : Emitted (done ++ [BitVec.ofNat 4 n]) (clearHalf (emitNibble (BitVec.ofNat 4 n) s)) :=
      (he.emit _ (by omega)).congr rfl rfl
    have hboth := hflushed.emit (BitVec.ofNat 4 r) (by simp; omega)
    rw [List.append_assoc] at hboth
    simp only [bodyDirect, hvalid, if_true, symbolEffect, h2, if_false, hflush]
    exact ⟨hnib ▸ hboth, rfl⟩

/-- The length of what one symbol completes. -/
theorem length_symbolEffect_le (p : Option Nat) (r : Nat) : (symbolEffect p r).1.length ≤ 2 := by
  unfold symbolEffect
  split <;> split_ifs <;> simp

/-- Only the pending half and the character being reassembled differ. -/
def HalvesOnly (s t : State) : Prop := t = { s with prev := t.prev, prevValid := t.prevValid, j := t.j, acc := t.acc }

theorem bodyHalf_frame (s : State) : HalvesOnly s (bodyHalf s) := by
  unfold bodyHalf
  split <;> rfl

theorem bodyDirect_frame (s : State) : HalvesOnly s (bodyDirect s) := by
  unfold bodyDirect
  cases s.prevValid <;> rfl

/-- A symbol's index is a half exactly below 2; the miss value is none of them. -/
theorem index_tests {r : Nat} (h : r < 14) :
    BitVec.ofNat 6 r ≠ lookupMiss ∧ (BitVec.ofNat 6 r).slt 2#6 = decide (r < 2) := by
  interval_cases r <;> decide

/-- A symbol that has an index is read, and its nibbles emitted. -/
theorem bodyStep_symbol {p : Option Nat} {c : Cell} {r : Nat} {rest : List Cell} {done : List Nibble} {s : State}
    (hin : Unread s (c :: rest)) (hc : indexOf c = some r) (hp : Pending p s) (he : Emitted done s)
    (hlt : done.length + 2 < 2 ^ 32) :
    ∃ t, bodyStep s = .go t ∧ Emitted (done ++ (symbolEffect p r).1) t ∧ Pending (symbolEffect p r).2 t ∧
      HalvesOnly (readSymbol s) t := by
  obtain ⟨hlook, h14⟩ := lookup_of_indexOf hc
  obtain ⟨hmiss, hslt⟩ := index_tests h14
  have hend : s.cur.toNat ≠ s.inLen.toNat := fun h => List.cons_ne_nil _ _ (hin.eq_nil_iff.mpr h)
  have hread : (readSymbol s).r = BitVec.ofNat 6 r := by
    show lookup (nextCell s) = _
    rw [hin.nextCell_cons, hlook]
  have hpend : Pending p (readSymbol s) := by cases p <;> exact hp
  have hemit : Emitted done (readSymbol s) := he.congr rfl rfl
  by_cases h2 : r < 2
  · obtain ⟨hemit', hpend'⟩ := bodyHalf_spec hpend hread h2 hemit (by omega)
    exact ⟨bodyHalf (readSymbol s), by simp [bodyStep, hend, hread, hmiss, hslt, h2], hemit', hpend', bodyHalf_frame _⟩
  · obtain ⟨hemit', hpend'⟩ := bodyDirect_spec hpend hread h2 hemit hlt
    exact ⟨bodyDirect (readSymbol s), by simp [bodyStep, hend, hread, hmiss, hslt, h2], hemit', hpend',
      bodyDirect_frame _⟩

/-! ### A body (R184) -/

/-- The body loop reads the whole body and emits the nibbles it spells. -/
theorem bodyLoop_spec (body : List Cell) {rest : List Cell} {p : Option Nat} {done ns : List Nibble} {s : State}
    (hin : Unread s (body ++ rest)) (hcount : s.bi.toNat + body.length = s.count.toNat) (hp : Pending p s)
    (he : Emitted done s) (hns : bodyNibbles p body = some ns) (hlt : done.length + 2 * body.length < 2 ^ 32) :
    ∃ t, bodyLoop body.length s = .go t ∧ Unread t rest ∧ Emitted (done ++ ns) t ∧ RecordOnly s t := by
  induction body generalizing s p done ns with
  | nil =>
    obtain rfl : ns = [] := by simpa [bodyNibbles] using hns.symm
    exact ⟨s, rfl, hin, by simpa using he, rfl⟩
  | cons c body ih =>
    rw [List.length_cons] at hcount hlt
    obtain ⟨r, ns', hc, hns', rfl⟩ := bodyNibbles_cons hns
    obtain ⟨u, hu, hemit, hpend, hframe⟩ := bodyStep_symbol hin hc hp he (by omega)
    have hunread : Unread u (body ++ rest) :=
      hin.advance_cons.congr (by rw [hframe]; rfl) (by rw [hframe]; rfl) (by rw [hframe]; rfl)
    have huframe : RecordOnly s u := by rw [RecordOnly, hframe]; rfl
    have hbi : u.bi.toNat = s.bi.toNat + 1 := by
      have hbound := s.count.isLt
      rw [hframe]
      show (s.bi + 1).toNat = _
      rw [BitVec.toNat_add]
      exact Nat.mod_eq_of_lt (by show s.bi.toNat + 1 < 2 ^ 32; omega)
    have hucount : u.count = s.count := by rw [hframe]; rfl
    have htwo := length_symbolEffect_le p r
    obtain ⟨t, ht, htin, htemit, htframe⟩ :=
      ih hunread (by rw [hbi, hucount]; omega) hpend hemit hns' (by rw [List.length_append]; omega)
    refine ⟨t, ?_, htin, by rw [← List.append_assoc]; exact htemit, huframe.trans htframe⟩
    rw [List.length_cons, bodyLoop, if_pos (by omega), hu]
    exact ht

/-- `read_body` (R184): the character of the nibbles the body spells. -/
theorem readBody_spec {body rest : List Cell} {ns : List Nibble} {s : State} (hin : Unread s (body ++ rest))
    (hcount : s.count.toNat = body.length) (hns : bodyNibbles none body = some ns) (hlt : 2 * body.length < 2 ^ 32) :
    ∃ t, readBody s = .go t ∧ Unread t rest ∧ t.acc = assemble ns ∧ RecordOnly s t := by
  obtain ⟨t, ht, htin, hemit, hframe⟩ := bodyLoop_spec body (p := none) (done := [])
    (s := { clearHalf s with j := 0, acc := 0, bi := 0 }) (hin.congr rfl rfl rfl)
    (by show 0 + _ = s.count.toNat; omega) rfl ⟨rfl, rfl⟩ hns (by rw [List.length_nil]; omega)
  exact ⟨t, by rw [readBody, hcount]; exact ht, htin, hemit.acc,
    RecordOnly.trans (t := { clearHalf s with j := 0, acc := 0, bi := 0 }) rfl hframe⟩

/-! ### The record loop (R181 to R186) -/

/-- How the reference decoder accepts a stream: it is empty, or one lone cell that is no dot, or a record whose body
spells nibbles and whose rest is accepted. -/
theorem decodedWithin_ok {fuel : Nat} {stream text : List Cell} (h : decodedWithin (fuel + 1) stream = .ok text) :
    (stream = [] ∧ text = []) ∨
    (stream ≠ [] ∧ (stream.takeWhile (· == dotCell)).length = 0 ∧ stream.drop 1 = [] ∧ text = []) ∨
    (stream ≠ [] ∧ ∃ k body rest ns tail, (stream.takeWhile (· == dotCell)).length = k ∧ k ≠ 0 ∧ body.length = k ∧
      stream.drop (k + 1) = body ++ rest ∧ bodyNibbles none body = some ns ∧ decodedWithin fuel rest = .ok tail ∧
      text = assemble ns :: tail) := by
  by_cases hnil : stream = []
  · exact .inl ⟨hnil, by simpa [decodedWithin, hnil] using h.symm⟩
  obtain ⟨k, hk⟩ : ∃ k, (stream.takeWhile (· == dotCell)).length = k := ⟨_, rfl⟩
  simp only [decodedWithin, if_neg hnil, hk] at h
  by_cases hk0 : k = 0
  · subst hk0
    rw [if_pos rfl] at h
    split_ifs at h with hrest
    exact .inr (.inl ⟨hnil, hk, hrest, by simpa using h.symm⟩)
  · rw [if_neg hk0] at h
    split_ifs at h with hlen
    have hbody : ((stream.drop (k + 1)).take k).length = k := by
      rw [List.length_take]
      omega
    cases hns : bodyNibbles none ((stream.drop (k + 1)).take k) with
    | none => simp only [hns, reduceCtorEq] at h
    | some ns =>
      cases htail : decodedWithin fuel ((stream.drop (k + 1)).drop k) with
      | error x => simp only [hns, htail, reduceCtorEq] at h
      | ok tail =>
        simp only [hns, htail, Except.ok.injEq] at h
        exact .inr (.inr ⟨hnil, k, _, _, ns, tail, hk, hk0, hbody, (List.take_append_drop k _).symm, hns, htail,
          h.symm⟩)

/-- No dots, and the input at its end: the loop ends (R183). -/
theorem decodeLoop_lone {fuel : Nat} {s : State} (hmore : moreInput s = true) (hcount : (readPrefix s).count = 0)
    (hend : (readPrefix s).cur.toNat = (readPrefix s).inLen.toNat) :
    decodeLoop (fuel + 1) s = .go (readPrefix s) := by
  rw [decodeLoop, if_pos hmore]
  simp only [hcount, hend, if_true]

/-- A record after its dots: the body read, its character appended, and the loop goes on. -/
theorem decodeLoop_record {fuel : Nat} {s u v : State} (hmore : moreInput s = true) (hcount : (readPrefix s).count ≠ 0)
    (hbody : readBody (readPrefix s) = .go u) (happend : bufAppend u.acc u = .go v) :
    decodeLoop (fuel + 1) s = decodeLoop fuel v := by
  rw [decodeLoop, if_pos hmore]
  simp only [if_neg hcount, hbody, happend, Flow.bind_go]

/-- The record loop writes what the reference decoder makes of what it has still to read, and reads all of it. -/
theorem decodeLoop_spec (fuel : Nat) {s0 s : State} {stream cs text : List Cell} (hin : Unread s stream)
    (hfuel : stream.length ≤ fuel) (hholds : Holds s cs) (hgrown : 1 ≤ s0.cap.toNat → DoubledOnceEach s0 s)
    (hsafe : cs.length + stream.length ≤ Config.maxSafeLen) (hlt : 2 * stream.length < 2 ^ 32)
    (htext : decodedWithin fuel stream = .ok text) :
    ∃ t, decodeLoop fuel s = .go t ∧ Unread t [] ∧ Holds t (cs ++ text) ∧
      (1 ≤ s0.cap.toNat → DoubledOnceEach s0 t) ∧ DecodeOnly s t := by
  induction fuel generalizing s stream cs text with
  | zero =>
    obtain rfl : stream = [] := List.length_eq_zero_iff.mp (by omega)
    obtain rfl : text = [] := by simpa [decodedWithin] using htext.symm
    exact ⟨s, rfl, hin, by simpa using hholds, hgrown, DecodeOnly.refl s⟩
  | succ fuel ih =>
    rcases decodedWithin_ok htext with ⟨rfl, rfl⟩ | ⟨hne, hk, hrest, rfl⟩ |
      ⟨hne, k, body, rest, ns, tail, hk, hk0, hbody, hsplit, hns, htail, rfl⟩
    · exact ⟨s, by simp [decodeLoop, hin.moreInput_nil], hin, by simpa using hholds, hgrown, DecodeOnly.refl s⟩
    · obtain ⟨hcount, hpin, hframe⟩ := readPrefix_spec hin
      rw [hk] at hcount
      rw [hk, Nat.zero_add, hrest] at hpin
      have hcount0 : (readPrefix s).count = 0 := BitVec.eq_of_toNat_eq hcount
      refine ⟨readPrefix s, decodeLoop_lone (hin.moreInput_of_ne_nil hne) hcount0 (hpin.eq_nil_iff.mp rfl), hpin, ?_,
        fun hc => (hgrown hc).congr ?_ ?_ ?_, decodeOnly_of_recordOnly hframe⟩
      · rw [List.append_nil]
        exact hholds.congr (by rw [hframe]) (by rw [hframe])
      all_goals rw [hframe]
    · obtain ⟨hcount, hpin, hpframe⟩ := readPrefix_spec hin
      rw [hk] at hcount
      rw [hk, hsplit] at hpin
      have hlen : body.length + rest.length + (k + 1) ≤ stream.length := by
        have := congrArg List.length hsplit
        rw [List.length_drop, List.length_append] at this
        omega
      have hcount0 : (readPrefix s).count ≠ 0 := fun h => hk0 (by rw [← hcount, h]; rfl)
      obtain ⟨u, hu, huin, hacc, huframe⟩ := readBody_spec hpin (by rw [hcount, hbody]) hns (by omega)
      have hframe := hpframe.trans huframe
      obtain ⟨v, hv, hvholds, hvframe⟩ :=
        bufAppend_holds (hholds.congr (t := u) (by rw [hframe]) (by rw [hframe])) u.acc (by omega)
      have hvgrown : 1 ≤ s0.cap.toNat → DoubledOnceEach s0 v := fun hc =>
        ((hgrown hc).congr (t := u) (by rw [hframe]) (by rw [hframe]) (by rw [hframe])).append hc hv
      rw [hacc] at hvholds
      obtain ⟨t, ht, htin, htholds, htgrown, htframe⟩ := ih (huin.of_bufferOnly hvframe) (by omega) hvholds hvgrown
        (by rw [List.length_append, List.length_singleton]; omega) (by omega) htail
      refine ⟨t, ?_, htin, ?_, htgrown,
        (decodeOnly_of_recordOnly hframe).trans ((decodeOnly_of_bufferOnly hvframe).trans htframe)⟩
      · rw [decodeLoop_record (hin.moreInput_of_ne_nil hne) hcount0 hu hv]
        exact ht
      · simpa using htholds

/-- Settles O31: DECODE runs the record loop over its whole input, from an empty buffer. -/
theorem decodePayloadIsDecodedText : Obligations.DecodePayloadIsDecodedText := by
  intro s text hpos hlimit htext
  have hmax : Config.maxSafeLen = 2 ^ 53 - 1 := rfl
  have hlen := length_inputCells s
  rw [decodedText, hlen] at htext
  obtain ⟨t, hrun, hin, hholds, hgrown, hframe⟩ :=
    decodeLoop_spec s.arg0.toNat (s0 := s) (startTransform_unread (by omega)) hlen.le (startTransform_holds s)
      (fun _ => DoubledOnceEach.start rfl rfl rfl) (by rw [hlen, List.length_nil]; omega) (by omega) htext
  have hinLen : t.inLen = s.arg0 := by rw [hframe]; rfl
  refine ⟨succeeded t, transform_succeeds hpos hlimit hrun, succeeded_completed (by rw [hframe]; rfl),
    succeeded_payload hholds, ?_, hinLen, ?_, ?_, ?_, fun hc => (hgrown hc).congr rfl rfl rfl⟩
  · rw [← hinLen]
    exact hin.eq_nil_iff.mp rfl
  · rw [hframe]; exact ⟨rfl, rfl, rfl, rfl⟩
  · rw [hframe]; exact ⟨rfl, rfl, rfl⟩
  · rw [hframe]; exact ⟨rfl, rfl, rfl, rfl⟩

end Sys2Proof.Proofs
end

section
/-! PROOFS. HASHENC (spec/45_hashed_encoder.md), for any generator: the padding loop, one nibble, the nibble loop and the
character loop, each against the reference Hashed Stream. -/

namespace Sys2Proof.Proofs

open Sys2Proof.Machine Sys2Proof.Reference

/-- Only what HASHENC works on differs: `CUR`, `CH`, `T`, the hashed encoder's registers and the buffer. -/
def HashOnly (s t : State) : Prop :=
  t = { s with
    cur := t.cur, ch := t.ch, t := t.t, bnum := t.bnum, pad := t.pad, temp := t.temp, pi := t.pi, out := t.out,
    len := t.len, cap := t.cap, grow := t.grow }

theorem HashOnly.refl (s : State) : HashOnly s s := rfl

theorem HashOnly.trans {s t u : State} (h : HashOnly s t) (h' : HashOnly t u) : HashOnly s u := by
  unfold HashOnly at *
  rw [h', h]

/-- Only what the padding loop works on differs: `BNUM`, `TEMP`, `PI` and the buffer. -/
def PadOnly (s t : State) : Prop :=
  t = { s with
    bnum := t.bnum, temp := t.temp, pi := t.pi, out := t.out, len := t.len, cap := t.cap, grow := t.grow }

theorem PadOnly.trans {s t u : State} (h : PadOnly s t) (h' : PadOnly t u) : PadOnly s u := by
  unfold PadOnly at *
  rw [h', h]

theorem padOnly_of_bufferOnly {s t : State} (h : BufferOnly s t) : PadOnly s t := by
  unfold PadOnly
  rw [h]

/-- Only what one nibble of HASHENC works on differs: neither `CH` nor `CUR` does. -/
def HashNibbleOnly (s t : State) : Prop :=
  t = { s with
    t := t.t, bnum := t.bnum, pad := t.pad, temp := t.temp, pi := t.pi, out := t.out, len := t.len, cap := t.cap,
    grow := t.grow }

/-! ### The padding of one nibble (R216, R217) -/

theorem length_padding (gen : U32 → U32) (n : Nat) (b : U32) : (padding gen n b).1.length = n := by
  induction n generalizing b with
  | zero => rfl
  | succ n ih => simp [padding, ih]

/-- The padding loop appends the padding symbols in the room reserved for them, and advances the accumulator past
each. -/
theorem padLoop_spec (gen : U32 → U32) (n : Nat) {c0 need : Nat} {cs : List Cell} {s : State}
    (h : Reserved c0 need cs s) (hroom : cs.length + n ≤ need) (hsafe : need ≤ Config.maxSafeLen) :
    ∃ t, padLoop gen n s = .go t ∧ Reserved c0 need (cs ++ (padding gen n s.bnum).1) t ∧
      t.bnum = (padding gen n s.bnum).2 ∧ PadOnly s t := by
  induction n generalizing s cs with
  | zero => exact ⟨s, rfl, by simpa [padding] using h, rfl, rfl⟩
  | succ n ih =>
    obtain ⟨u, hu, hub, huf⟩ := (h.congr (t := { s with
      pi := s.pad - BitVec.ofNat 5 n, bnum := gen s.bnum, temp := (gen s.bnum).extractLsb' 0 4 }) rfl rfl rfl rfl).append
      (symbolCell (padSymbol ((gen s.bnum).extractLsb' 0 4))) (by omega) hsafe
    have hbnum : u.bnum = gen s.bnum := by rw [huf]
    have hframe : PadOnly s u := by rw [PadOnly, huf]
    obtain ⟨t, ht, htb, htbnum, htf⟩ := ih hub (by rw [List.length_append, List.length_singleton]; omega)
    rw [hbnum] at htb htbnum
    refine ⟨t, ?_, ?_, htbnum, hframe.trans htf⟩
    · rw [padLoop]
      exact (congrArg (Flow.bind · (padLoop gen n)) hu).trans ht
    · rw [padding, BitVec.setWidth_eq_extractLsb' (by decide : 4 ≤ 32)]
      simpa using htb

/-! ### One nibble (R216) -/

/-- The symbols of a list of nibbles: those of the first, then those of the rest from the accumulator it leaves. -/
theorem hashedNibbles_cons (gen : U32 → U32) (c : Nibble) (cs : List Nibble) (b : U32) :
    hashedNibbles gen (c :: cs) b =
      ((hashedNibbles gen [c] b).1 ++ (hashedNibbles gen cs (hashedNibbles gen [c] b).2).1,
        (hashedNibbles gen cs (hashedNibbles gen [c] b).2).2) := by
  simp [hashedNibbles]

/-- A nibble has at most 31 padding symbols and its own. -/
theorem length_hashedNibbles_le (gen : U32 → U32) (ns : List Nibble) (b : U32) :
    (hashedNibbles gen ns b).1.length ≤ 32 * ns.length := by
  induction ns generalizing b with
  | nil => exact Nat.le_refl 0
  | cons c rest ih =>
    have hrest := ih (padding gen ((gen (c.setWidth 32 + b)).toNat % 32) b).2
    have hpad := Nat.mod_lt (gen (c.setWidth 32 + b)).toNat (by decide : 32 > 0)
    simp only [hashedNibbles, List.length_append, length_padding, List.length_cons]
    omega

/-- One nibble of HASHENC appends its padding and its symbol, and leaves the accumulator the padding has reached. -/
theorem hashNibble_spec (gen : U32 → U32) {c0 : Nat} {cs : List Cell} {s : State} (h : Built c0 cs s)
    (hsafe : cs.length + 32 ≤ Config.maxSafeLen) :
    ∃ t, hashNibble gen s = .go t ∧ Built c0 (cs ++ (hashedNibbles gen [nibbleAt s.ch 0] s.bnum).1) t ∧
      t.bnum = (hashedNibbles gen [nibbleAt s.ch 0] s.bnum).2 ∧ HashNibbleOnly s t := by
  obtain ⟨n, hn⟩ : ∃ n, n = (gen ((nibbleAt s.ch 0).setWidth 32 + s.bnum)).toNat % 32 := ⟨_, rfl⟩
  have hn32 : n < 32 := hn ▸ Nat.mod_lt _ (by decide)
  have hpad : (choosePad gen (loadNibble s)).pad.toNat = n := by
    show ((gen ((nibbleAt s.ch 0).setWidth 32 + s.bnum)).extractLsb' 0 5).toNat = n
    rw [hn, BitVec.extractLsb'_toNat, Nat.shiftRight_zero]
  have hstart : Built c0 cs (choosePad gen (loadNibble s)) := h.congr rfl rfl rfl rfl
  obtain ⟨u, hu, hub, huf⟩ := hstart.reserve (n + 1) (by omega)
  have hupad : u.pad.toNat = n := by rw [huf]; exact hpad
  have hubnum : u.bnum = s.bnum := by rw [huf]; rfl
  obtain ⟨v, hv, hvb, hvbnum, hvf⟩ := padLoop_spec gen n hub (by omega) (by omega)
  rw [hubnum] at hvb hvbnum
  have hframe := (padOnly_of_bufferOnly huf).trans hvf
  have hvt : v.t = nibbleAt s.ch 0 := by rw [hframe]; rfl
  obtain ⟨t, ht, htb, htf⟩ := hvb.append (symbolCell (alpha (nibbleAt s.ch 0)))
    (by rw [List.length_append, length_padding]; omega) (by omega)
  have hsymbols : hashedNibbles gen [nibbleAt s.ch 0] s.bnum =
      ((padding gen n s.bnum).1 ++ [symbolCell (alpha (nibbleAt s.ch 0))], (padding gen n s.bnum).2) := by
    rw [hn]; rfl
  have hlen : cs.length + (n + 1) =
      (cs ++ ((padding gen n s.bnum).1 ++ [symbolCell (alpha (nibbleAt s.ch 0))])).length := by
    simp [length_padding]
  rw [hsymbols]
  refine ⟨t, ?_, ?_, by rw [htf]; exact hvbnum, ?_⟩
  · simp only [hashNibble, hpad, hu, hupad, hv, hvt, ht, Flow.bind_go]
  · rwa [hlen, List.append_assoc] at htb
  · rw [HashNibbleOnly, htf, hframe]; rfl

/-! ### A character and the character loop (R216) -/

theorem hashNibbles_of_zero (gen : U32 → U32) (fuel : Nat) {s : State} (h : s.ch = 0) :
    hashNibbles gen fuel s = .go s := by
  cases fuel with
  | zero => rfl
  | succ fuel => rw [hashNibbles, if_pos h]

/-- The nibble loop appends the symbols of what is left in `CH`, given passes enough. -/
theorem hashNibbles_spec (gen : U32 → U32) (fuel : Nat) {c0 : Nat} {cs : List Cell} {s : State}
    (hch : s.ch.toNat < 16 ^ fuel) (h : Built c0 cs s) (hsafe : cs.length + 32 * fuel ≤ Config.maxSafeLen) :
    ∃ t, hashNibbles gen fuel s = .go t ∧ Built c0 (cs ++ (hashedNibbles gen (nibblesOf s.ch) s.bnum).1) t ∧
      t.bnum = (hashedNibbles gen (nibblesOf s.ch) s.bnum).2 ∧ t.cur = s.cur ∧ HashOnly s t := by
  induction fuel generalizing s cs with
  | zero =>
    have h0 : s.ch = 0 := BitVec.eq_of_toNat_eq (by simpa using hch)
    exact ⟨s, rfl, by rw [h0, nibblesOf_zero]; simpa [hashedNibbles] using h, by rw [h0]; rfl, rfl, HashOnly.refl s⟩
  | succ fuel ih =>
    by_cases h0 : s.ch = 0
    · exact ⟨s, hashNibbles_of_zero gen _ h0, by rw [h0, nibblesOf_zero]; simpa [hashedNibbles] using h,
        by rw [h0]; rfl, rfl, HashOnly.refl s⟩
    · obtain ⟨u, hu, hub, hubnum, huf⟩ := hashNibble_spec gen h (by omega)
      have hch' : (dropNibble u).ch = s.ch >>> 4 := by rw [dropNibble_ch, huf]
      have hbnum' : (dropNibble u).bnum = (hashedNibbles gen [nibbleAt s.ch 0] s.bnum).2 := hubnum
      have hone := length_hashedNibbles_le gen [nibbleAt s.ch 0] s.bnum
      rw [List.length_singleton] at hone
      have hlt : (dropNibble u).ch.toNat < 16 ^ fuel := by
        rw [hch', toNat_dropNibble]
        rw [Nat.pow_succ] at hch
        omega
      obtain ⟨t, ht, htb, htbnum, htcur, htf⟩ := ih (s := dropNibble u) hlt (hub.congr rfl rfl rfl rfl)
        (by rw [List.length_append]; omega)
      rw [hch', hbnum'] at htb htbnum
      rw [nibblesOf_cons h0, hashedNibbles_cons]
      refine ⟨t, ?_, by rwa [← List.append_assoc], htbnum, by rw [htcur, dropNibble_cur, huf], ?_⟩
      · rw [hashNibbles, if_neg h0, hu]
        exact ht
      · exact HashOnly.trans (t := dropNibble u) (by rw [HashOnly, dropNibble, huf]) htf

/-- One character of HASHENC appends its nibbles' symbols, advances the accumulator once more and the cursor past it. -/
theorem hashChar_spec (gen : U32 → U32) {c0 : Nat} {cs rest : List Cell} {c : Cell} {s : State}
    (hin : Unread s (c :: rest)) (h : Built c0 cs s) (hsafe : cs.length + 128 ≤ Config.maxSafeLen) :
    ∃ t, hashChar gen s = .go t ∧ Unread t rest ∧ Built c0 (cs ++ (hashedNibbles gen (nibblesOf c) s.bnum).1) t ∧
      t.bnum = gen (hashedNibbles gen (nibblesOf c) s.bnum).2 ∧ HashOnly s t := by
  have hch : (loadChar s).ch = c := hin.nextCell_cons
  obtain ⟨u, hu, hub, hubnum, hucur, huf⟩ :=
    hashNibbles_spec gen 4 (s := loadChar s) (loadChar s).ch.isLt (h.congr rfl rfl rfl rfl) (by omega)
  rw [hch, loadChar_bnum] at hub hubnum
  refine ⟨advanceBnum gen u, by rw [hashChar, hu]; rfl, ?_, hub.congr rfl rfl rfl rfl, congrArg gen hubnum, ?_⟩
  · exact hin.advance_cons.congr hucur (by rw [advanceBnum, huf]; rfl) (by rw [advanceBnum, huf]; rfl)
  · rw [HashOnly, advanceBnum, huf]; rfl

/-- The character loop appends the symbols of what it has still to read, and reads all of it. -/
theorem hashLoop_spec (gen : U32 → U32) (text : List Cell) {c0 : Nat} {cs : List Cell} {s : State}
    (hin : Unread s text) (h : Built c0 cs s) (hsafe : cs.length + 128 * text.length ≤ Config.maxSafeLen) :
    ∃ t, hashLoop gen text.length s = .go t ∧ Unread t [] ∧ Built c0 (cs ++ hashedFrom gen text s.bnum) t ∧
      HashOnly s t := by
  induction text generalizing s cs with
  | nil => exact ⟨s, rfl, hin, by simpa [hashedFrom] using h, HashOnly.refl s⟩
  | cons c rest ih =>
    rw [List.length_cons] at hsafe
    obtain ⟨u, hu, huin, hub, hubnum, huf⟩ := hashChar_spec gen hin h (by omega)
    have hlen := length_hashedNibbles_le gen (nibblesOf c) s.bnum
    have hfour := length_nibblesOf_le c
    obtain ⟨t, ht, htin, htb, htf⟩ := ih huin hub (by rw [List.length_append]; omega)
    rw [hubnum] at htb
    refine ⟨t, ?_, htin, ?_, huf.trans htf⟩
    · rw [List.length_cons, hashLoop, if_pos hin.moreInput_cons, hu]
      exact ht
    · rw [hashedFrom, ← List.append_assoc]
      exact htb

/-- HASHENC under any generator writes the Hashed Stream of its input (R216). -/
theorem hashencWith_spec (gen : U32 → U32) {s : State} (hpos : 0 < s.arg0.toNat)
    (hlimit : s.arg0.toNat ≤ Config.maxBufferSize) :
    ∃ t, hashencWith gen s = .next (succeeded t) ∧ Unread t [] ∧
      Built s.cap.toNat (hashedStream gen (inputCells s)) t ∧ HashOnly (startTransform s) t := by
  have hmax : Config.maxSafeLen = 2 ^ 53 - 1 := rfl
  have hbuf : Config.maxBufferSize = 16777216 := rfl
  have hlen := length_inputCells s
  obtain ⟨t, hrun, hin, hbuilt, hframe⟩ :=
    hashLoop_spec gen (inputCells s) (s := startBnum gen (startTransform s))
      ((startTransform_unread (by omega)).congr rfl rfl rfl) ((startTransform_built s).congr rfl rfl rfl rfl)
      (by rw [hlen, List.length_nil]; omega)
  have hseed : (startBnum gen (startTransform s)).bnum =
      BitVec.ofNat 32 (inputCells s).length + gen (BitVec.ofNat 32 (inputCells s).length) := by
    rw [hlen, BitVec.ofNat_toNat]
    rfl
  rw [hseed, List.nil_append] at hbuilt
  rw [hlen] at hrun
  exact ⟨t, transform_succeeds hpos hlimit hrun, hin, hbuilt,
    HashOnly.trans (t := startBnum gen (startTransform s)) rfl hframe⟩

/-- Settles O36: the command runs HASHENC with the parameter `NEXT_FN` for its generator. -/
theorem hashencPayloadIsHashedStream : Obligations.HashencPayloadIsHashedStream := by
  intro s hpos hlimit
  obtain ⟨t, hrun, hin, hbuilt, hframe⟩ := hashencWith_spec Config.nextFn hpos hlimit
  have hlen : t.inLen = s.arg0 := by rw [hframe]; rfl
  refine ⟨succeeded t, hrun, succeeded_completed (by rw [hframe]; rfl), succeeded_payload hbuilt.holds, ?_, hlen, ?_, ?_,
    ?_, hbuilt.doubledTo⟩
  · rw [← hlen]
    exact hin.eq_nil_iff.mp rfl
  · show t.k = s.k
    rw [hframe]; rfl
  · rw [hframe]; exact ⟨rfl, rfl, rfl, rfl⟩
  · rw [hframe]; exact ⟨rfl, rfl, rfl, rfl, rfl, rfl, rfl⟩

end Sys2Proof.Proofs
end

section
/-! PROOFS. The padding symbols (spec/45_hashed_encoder.md, R217): the selection on each of its three ranges, and the
table those ranges make. -/

namespace Sys2Proof.Proofs

open Sys2Proof.Machine Sys2Proof.Reference

/-! ### The three ranges (R217) -/

theorem padSymbol_of_lt_six {t : Nibble} (h : t.toNat < 6) : padSymbol t = alpha 1#4 := by
  rw [padSymbol, if_pos h]

theorem padSymbol_of_lt_fourteen {t : Nibble} (hlow : 6 ≤ t.toNat) (hhigh : t.toNat < 14) :
    padSymbol t = alpha (t - 2#4) := by
  rw [padSymbol, if_neg (by omega), if_pos hhigh]

theorem padSymbol_of_fourteen_le {t : Nibble} (h : 14 ≤ t.toNat) : padSymbol t = alpha 0#4 := by
  rw [padSymbol, if_neg (by omega), if_neg (by omega)]

/-! ### The table (R217) -/

/-- Over all nibbles in order: six dots, the alphabet's bytes 4 to 11, two spaces. -/
theorem map_padSymbol_ranges :
    (List.range 16).map (fun n => padSymbol (BitVec.ofNat 4 n)) =
      List.replicate 6 (alpha 1#4) ++ (List.range' 6 8).map (fun n => alpha (BitVec.ofNat 4 n - 2#4)) ++
        List.replicate 2 (alpha 0#4) := by
  have hsplit : List.range 16 = List.range' 0 6 ++ List.range' 6 8 ++ List.range' 14 2 := rfl
  have hlow : (List.range' 0 6).map (fun n => padSymbol (BitVec.ofNat 4 n)) = List.replicate 6 (alpha 1#4) :=
    List.map_eq_replicate_iff.mpr fun n hn => by
      rw [List.mem_range'_1] at hn
      exact padSymbol_of_lt_six (by bv_omega)
  have hmid : (List.range' 6 8).map (fun n => padSymbol (BitVec.ofNat 4 n)) =
      (List.range' 6 8).map fun n => alpha (BitVec.ofNat 4 n - 2#4) :=
    List.map_congr_left fun n hn => by
      rw [List.mem_range'_1] at hn
      exact padSymbol_of_lt_fourteen (by bv_omega) (by bv_omega)
  have hhigh : (List.range' 14 2).map (fun n => padSymbol (BitVec.ofNat 4 n)) = List.replicate 2 (alpha 0#4) :=
    List.map_eq_replicate_iff.mpr fun n hn => by
      rw [List.mem_range'_1] at hn
      exact padSymbol_of_fourteen_le (by bv_omega)
  rw [hsplit, List.map_append, List.map_append, hlow, hmid, hhigh]

/-- Settles O38: the three ranges, with the bytes R97 gives the alphabet at 0, 1 and 4 to 11. -/
theorem padSymbolTable : Obligations.PadSymbolTable := by
  unfold Obligations.PadSymbolTable
  rw [map_padSymbol_ranges]
  rfl

end Sys2Proof.Proofs
end

section
/-! PROOFS. Starting a command, bad commands and the stability of the input (spec/46_control_commands.md R230 to R233,
R236; spec/70_reset_and_hazards.md R283). -/

namespace Sys2Proof.Proofs

open Sys2Proof.Machine Sys2Proof.Reference

/-! ### The command word (R90, R106, R231) -/

theorem cmdOp_eq_release_iff (w : Word) : cmdOp w = 0xF#4 ↔ w.toNat % 16 = 15 := by
  rw [← BitVec.toNat_inj]
  simp [cmdOp]

/-- A value of at least `2 ^ k` has a bit set from bit `k` on. -/
theorem extractLsb'_high_ne_zero {a : Word} {k n : Nat} (hkn : k + n = 64) (h : 2 ^ k ≤ a.toNat) :
    a.extractLsb' k n ≠ 0 := by
  have hquot : a.toNat / 2 ^ k < 2 ^ n :=
    Nat.div_lt_of_lt_mul (by rw [← Nat.pow_add, hkn]; exact a.isLt)
  have hpos : 0 < a.toNat / 2 ^ k := Nat.div_pos h (Nat.two_pow_pos k)
  intro h0
  have hzero : a.toNat / 2 ^ k = 0 := by
    simpa [Nat.shiftRight_eq_div_pow, Nat.mod_eq_of_lt hquot] using congrArg BitVec.toNat h0
  omega

theorem decode_reservedBits {w : Word} (hop : w.toNat % 16 ≠ 15) (h : 16 ≤ w.toNat) :
    decode w = .error .reservedBits := by
  have hrelease : cmdOp w ≠ 0xF#4 := mt (cmdOp_eq_release_iff w).mp hop
  have hbits : cmdReserved w ≠ 0 := extractLsb'_high_ne_zero (by decide) h
  rw [decode, if_neg hrelease, if_pos hbits]

theorem decode_reservedOp {w : Word} (h : w.toNat = 0 ∨ w.toNat = 12 ∨ w.toNat = 13 ∨ w.toNat = 14) :
    decode w = .error (.reservedOp (cmdOp w)) := by
  rcases h with h | h | h | h
  · obtain rfl : w = 0#64 := BitVec.eq_of_toNat_eq h
    rfl
  · obtain rfl : w = 12#64 := BitVec.eq_of_toNat_eq h
    rfl
  · obtain rfl : w = 13#64 := BitVec.eq_of_toNat_eq h
    rfl
  · obtain rfl : w = 14#64 := BitVec.eq_of_toNat_eq h
    rfl

/-! ### Operands outside the legal ranges (R96, R233) -/

theorem seedOperand_eq_none {a : Word} (h : 2 ^ 32 ≤ a.toNat) : seedOperand a = none :=
  if_neg (extractLsb'_high_ne_zero (by decide) h)

theorem cellOperand_eq_none {a : Word} (h : 2 ^ 16 ≤ a.toNat) : cellOperand a = none :=
  if_neg (extractLsb'_high_ne_zero (by decide) h)

theorem countOperand_eq_none {a : Word} (h : 17 ≤ a.toNat) : countOperand a = none :=
  if_neg (Nat.not_le.mpr h)

theorem nibbleOperand_eq_none {a : Word} (h : 2 ^ 4 ≤ a.toNat) : nibbleOperand a = none :=
  if_neg (extractLsb'_high_ne_zero (by decide) h)

/-- A unit command without a legal operand fails before its body (R233, R249). -/
theorem complete_withOperand_of_none {α : Type} {operand : Option α} (h : operand = none) (s : State)
    (body : α → Flow) : complete (withOperand operand s body) = .next (failedWith 0xFFFFFFFFFFFFFFFC#64 s) := by
  subst h
  rfl

/-! ### The ENGINE's turn at a held word (R231, R233) -/

theorem step_held_command {s : State} {w : Word} {i : Instr} (hin : s.inputs = []) (hs : s.state = .busy)
    (hheld : s.held = some w) (hd : decode w = .ok i) : step s = exec i s :=
  step_of_run (by simp [nextMove_nil hin, engineTurn, hs, hheld, hd])

theorem step_held_no_command {s : State} {w : Word} {e : DecodeError} (hin : s.inputs = []) (hs : s.state = .busy)
    (hheld : s.held = some w) (hd : decode w = .error e) : step s = .next (failedWith 0xFFFFFFFFFFFFFFFC#64 s) := by
  have hmove : nextMove s = .settle (raiseEntry .badCommand s) := by
    simp [nextMove_nil hin, engineTurn, hs, hheld, hd]
  exact step_of_settle hmove

/-- Settles O7: the decoder rejects the word, or the operand check comes out empty; either way the failure entry is all
that happens. -/
theorem badCommandChangesNothingElse : Obligations.BadCommandChangesNothingElse := by
  refine ⟨fun s w hin hs hheld hop hbad => ?_, fun s =>
    ⟨fun h => ?_, fun h => ?_, fun h => ?_, fun h => ?_, fun h => ?_⟩⟩
  · rcases hbad with hbits | hreserved
    · exact step_held_no_command hin hs hheld (decode_reservedBits hop hbits)
    · exact step_held_no_command hin hs hheld (decode_reservedOp hreserved)
  · exact complete_withOperand_of_none (seedOperand_eq_none h) s _
  · exact complete_withOperand_of_none (cellOperand_eq_none h) s _
  · exact complete_withOperand_of_none (countOperand_eq_none h) s _
  · exact complete_withOperand_of_none (cellOperand_eq_none h) s _
  · exact complete_withOperand_of_none (nibbleOperand_eq_none h) s _

/-! ### HOST writes (R64, R230, R232, R236) -/

/-- Settles O57: every cell below `ARG0` is in use while a transform is held, so the write is refused. -/
theorem inputChangesUnderATransformAreRefused : Obligations.InputChangesUnderATransformAreRefused := by
  intro s i v rest hin htransform hi
  have huse : inputInUse i { s with inputs := rest } = true := (inputInUse_iff _ _).mpr ⟨htransform, hi⟩
  exact step_of_refuse (by simp [nextMove_cons hin, hostAction, huse])

theorem nextMove_writeCmd {s : State} {w : Word} {rest : List HostEvent} (hin : s.inputs = .writeReg 0 w :: rest) :
    nextMove s = writeCmd w { s with inputs := rest } := nextMove_cons hin

/-- RELEASE is taken outside BUSY (R232). -/
theorem step_cmd_release {s : State} {w : Word} {rest : List HostEvent} (hin : s.inputs = .writeReg 0 w :: rest)
    (hs : s.state ≠ .busy) (hop : w.toNat % 16 = 15) : step s = .next (releaseReturn { s with inputs := rest }) := by
  have hrelease := (cmdOp_eq_release_iff w).mpr hop
  rcases writeCmd_cases w { s with inputs := rest } with ⟨_, _, hrun⟩ | ⟨hne, _⟩ | ⟨⟨_, hbusy⟩ | ⟨hne, _⟩, _⟩
  · exact step_of_run ((nextMove_writeCmd hin).trans hrun)
  · exact absurd hrelease hne
  · exact absurd hbusy hs
  · exact absurd hrelease hne

/-- Any other word is held in IDLE (R230). -/
theorem step_cmd_held {s : State} {w : Word} {rest : List HostEvent} (hin : s.inputs = .writeReg 0 w :: rest)
    (hs : s.state = .idle) (hop : w.toNat % 16 ≠ 15) :
    step s = .next { s with inputs := rest, state := .busy, held := some w } := by
  have hrelease := mt (cmdOp_eq_release_iff w).mp hop
  rcases writeCmd_cases w { s with inputs := rest } with ⟨heq, _⟩ | ⟨_, _, hheld⟩ | ⟨⟨heq, _⟩ | ⟨_, hne⟩, _⟩
  · exact absurd heq hrelease
  · exact step_of_settle ((nextMove_writeCmd hin).trans hheld)
  · exact absurd heq hrelease
  · exact absurd hs hne

/-- Every write is ignored in BUSY, and every one but RELEASE in DONE (R230). -/
theorem step_cmd_ignored {s : State} {w : Word} {rest : List HostEvent} (hin : s.inputs = .writeReg 0 w :: rest)
    (hs : s.state = .busy ∨ s.state = .done ∧ w.toNat % 16 ≠ 15) : step s = .next { s with inputs := rest } := by
  rcases writeCmd_cases w { s with inputs := rest } with ⟨heq, hne, _⟩ | ⟨_, hidle, _⟩ | ⟨_, hignored⟩
  · rcases hs with hbusy | ⟨_, hop⟩
    · exact absurd hbusy hne
    · exact absurd ((cmdOp_eq_release_iff w).mp heq) hop
  · have hidle : s.state = .idle := hidle
    simp [hidle] at hs
  · exact step_of_settle ((nextMove_writeCmd hin).trans hignored)

/-- Settles O6: the three things a write can do, and the ENGINE's turn at the word a write in IDLE leaves held. -/
theorem cmdWriteByState : Obligations.CmdWriteByState := by
  intro s w rest hin
  refine ⟨fun hs hop => ?_, fun hs hop => ?_, fun hs => ?_, fun hs hop => ?_, fun hs hop => ?_⟩
  · rw [step_cmd_release hin (by simp [hs]) hop, releaseReturn, if_neg (by simp [hs])]
  · refine ⟨_, step_cmd_held hin hs hop, rfl, fun hrest => ⟨fun i hd => ?_, fun e hd => ?_⟩⟩
    · exact step_held_command hrest rfl rfl hd
    · exact step_held_no_command hrest rfl rfl hd
  · exact step_cmd_ignored hin (.inl hs)
  · rw [step_cmd_release hin (by simp [hs]) hop, releaseReturn, if_pos hs]
  · exact step_cmd_ignored hin (.inr ⟨hs, hop⟩)

end Sys2Proof.Proofs
end

section
/-! PROOFS. The command word (spec/30_encoding.md R90, R95, R106): decoding and encoding agree in both directions, and
the reserved words are rejected by name. -/

namespace Sys2Proof.Proofs

open Sys2Proof.Machine Sys2Proof.Reference

/-! ### The two fields of a word (R90) -/

theorem cmdReserved_append_cmdOp (w : Word) : cmdReserved w ++ cmdOp w = w :=
  BitVec.extractLsb'_append_extractLsb' (w := 60) (len := 4)

theorem cmdOp_append (u : BitVec 60) (op : BitVec 4) : cmdOp (u ++ op) = op :=
  BitVec.extractLsb'_append_eq_right

theorem cmdReserved_append (u : BitVec 60) (op : BitVec 4) : cmdReserved (u ++ op) = u :=
  BitVec.extractLsb'_append_eq_left

/-- A word is its `OP` where its reserved bits are zero. -/
theorem eq_zero_append_cmdOp {w : Word} (h : cmdReserved w = 0) : w = 0#60 ++ cmdOp w := by
  rw [← cmdReserved_append_cmdOp w, h, cmdOp_append]
  rfl

theorem cmdOp_toNat (w : Word) : (cmdOp w).toNat = w.toNat % 16 := by
  simp [cmdOp]

theorem cmdReserved_eq_zero_iff (w : Word) : cmdReserved w = 0 ↔ w.toNat < 16 := by
  refine ⟨fun h => Nat.lt_of_not_le fun hge => extractLsb'_high_ne_zero (by decide) hge h, fun h => ?_⟩
  apply BitVec.eq_of_toNat_eq
  simp [cmdReserved, Nat.shiftRight_eq_div_pow]
  omega

/-! ### Both directions (R90, R95) -/

/-- The decoder reads every command back from its own word. -/
theorem decode_encode (i : Instr) : decode (encode i) = .ok i := by
  cases i with
  | release u => rw [encode, decode, cmdOp_append, cmdReserved_append, if_pos rfl]
  | _ => rfl

/-- A word the decoder accepts is the word of the command it reads: RELEASE by its two fields, any other by its `OP`
alone. -/
theorem encode_of_decode {w : Word} {i : Instr} (h : decode w = .ok i) : encode i = w := by
  unfold decode at h
  split_ifs at h with hrelease hreserved
  · cases h
    rw [encode, ← hrelease, cmdReserved_append_cmdOp]
  · have hw := eq_zero_append_cmdOp (not_not.mp hreserved)
    split at h <;> cases h
    all_goals
      rename_i hop
      rw [hw, hop]
      rfl

theorem decode_eq_ok_iff (w : Word) (i : Instr) : decode w = .ok i ↔ encode i = w :=
  ⟨encode_of_decode, fun h => h ▸ decode_encode i⟩

/-- Settles O1: by the two fields of a word in one direction, by the commands in the other. -/
theorem decodeIsInverseOfEncode : Obligations.DecodeIsInverseOfEncode := decode_eq_ok_iff

/-- Settles O3: each word of the OP map is the word of its command. -/
theorem opMapWordsDecode : Obligations.OpMapWordsDecode :=
  ⟨decode_encode .encode, decode_encode .decode, decode_encode .hashenc, decode_encode .next, decode_encode .bufnew,
    decode_encode .reserve, decode_encode .append, decode_encode .appendspan, decode_encode .length,
    decode_encode .lookup, decode_encode .token, decode_encode (.release 0), decode_encode (.release 1)⟩

/-! ### The reserved words (R106, R231) -/

/-- The ways a word can be rejected, in the order they are tested in (R231). -/
theorem decode_error_cases {w : Word} {e : DecodeError} (h : decode w = .error e) :
    w.toNat % 16 ≠ 15 ∧
      (e = .reservedBits ∧ 16 ≤ w.toNat ∨
        e = .reservedOp (cmdOp w) ∧ (w.toNat = 0 ∨ w.toNat = 12 ∨ w.toNat = 13 ∨ w.toNat = 14)) := by
  unfold decode at h
  split_ifs at h with hrelease hreserved
  all_goals refine ⟨mt (cmdOp_eq_release_iff w).mpr hrelease, ?_⟩
  · cases h
    exact .inl ⟨rfl, Nat.le_of_not_lt (mt (cmdReserved_eq_zero_iff w).mpr hreserved)⟩
  · have hlt := (cmdReserved_eq_zero_iff w).mp (not_not.mp hreserved)
    have hop := cmdOp_toNat w
    split at h <;> cases h
    refine .inr ⟨rfl, ?_⟩
    simp only [imp_false] at *
    bv_omega

/-- Settles O2: a rejected word is one or the other, and never both. -/
theorem reservedWordsAreRejected : Obligations.ReservedWordsAreRejected := by
  intro w
  refine ⟨⟨fun h => ?_, fun ⟨hop, hbits⟩ => decode_reservedBits hop hbits⟩, fun op =>
    ⟨fun h => ?_, fun ⟨hop, hw⟩ => ?_⟩⟩
  · obtain ⟨hop, ⟨_, hbits⟩ | ⟨he, _⟩⟩ := decode_error_cases h
    · exact ⟨hop, hbits⟩
    · cases he
  · obtain ⟨_, ⟨he, _⟩ | ⟨he, hw⟩⟩ := decode_error_cases h
    · cases he
    · cases he
      exact ⟨by rw [cmdOp_toNat]; omega, hw⟩
  · have hcmd : cmdOp w = op := BitVec.eq_of_toNat_eq (by rw [cmdOp_toNat]; omega)
    rw [decode_reservedOp hw, hcmd]

end Sys2Proof.Proofs
end

section
/-! PROOFS. Starting and ending a command (spec/46_control_commands.md R230 to R232; spec/60_exceptions.md R250, R251;
spec/70_reset_and_hazards.md R294): the step that runs a decoded command, RELEASE, and the turns in which nothing
happens. -/

namespace Sys2Proof.Proofs

open Sys2Proof.Machine Sys2Proof.Reference

/-! ### The step that runs a command (R230 to R232) -/

theorem step_engine_command {s : State} {w : Word} {i : Instr} {rest : List HostEvent}
    (hin : s.inputs = .engine :: rest) (hs : s.state = .busy) (hheld : s.held = some w) (hd : decode w = .ok i) :
    step s = exec i { s with inputs := rest } := by
  have hmove : nextMove s = engineTurn { s with inputs := rest } := nextMove_cons hin
  exact step_of_run (by simp [hmove, engineTurn, hs, hheld, hd])

/-- A word that decodes to RELEASE carries its unexamined bits (R232). -/
theorem cmd_fields_of_release {w : Word} {u : BitVec 60} (h : decode w = .ok (.release u)) :
    cmdOp w = 0xF#4 ∧ cmdReserved w = u := by
  obtain rfl : u ++ 0xF#4 = w := encode_of_decode h
  exact ⟨cmdOp_append u _, cmdReserved_append u _⟩

theorem step_write_release {s : State} {w : Word} {rest : List HostEvent} (hin : s.inputs = .writeReg 0 w :: rest)
    (hs : s.state ≠ .busy) (hop : cmdOp w = 0xF#4) :
    step s = exec (.release (cmdReserved w)) { s with inputs := rest } :=
  step_of_run ((nextMove_writeCmd hin).trans (by simp [writeCmd, hop, hs]))

/-- Settles O4: the ENGINE's turn in its two forms, and the RELEASE write, which is never held. -/
theorem stepRunsTheDecodedCommand : Obligations.StepRunsTheDecodedCommand := by
  refine ⟨fun s w i hs hheld hd => ⟨fun hin => ?_, fun rest hin => ?_⟩, fun s w u rest hs hin hd => ?_⟩
  · exact step_held_command hin hs hheld hd
  · exact step_engine_command hin hs hheld hd
  · obtain ⟨hop, rfl⟩ := cmd_fields_of_release hd
    exact step_write_release hin hs hop

/-! ### The word `withFetchWord` places (notes/assumptions/2.md) -/

theorem decode_tableWord {nbits w : Nat} {i : Instr} (h : decodeTableWord nbits w = some i) :
    decode (tableWord nbits w) = .ok i := by
  unfold decodeTableWord at h
  split at h <;> cases h
  assumption

/-- RELEASE is placed as the HOST's next write. -/
theorem step_placed_release {s : State} {cmd : Word} (hop : cmdOp cmd = 0xF#4) :
    step (placeCommand s cmd) = exec (.release (cmdReserved cmd))
      { s with state := if s.state = .busy then .done else s.state, held := none } := by
  rw [placeCommand, if_pos hop]
  refine step_write_release rfl ?_ hop
  show (if s.state = .busy then EngineState.done else s.state) ≠ .busy
  split_ifs with hs
  · decide
  · exact hs

/-- Any other command is placed in the sequencer, and the ENGINE's turn comes first. -/
theorem step_placed_held {s : State} {cmd : Word} {i : Instr} (hop : cmdOp cmd ≠ 0xF#4) (hd : decode cmd = .ok i) :
    step (placeCommand s cmd) = exec i { s with state := .busy, held := some cmd } := by
  rw [placeCommand, if_neg hop]
  cases hin : s.inputs with
  | nil => exact step_held_command rfl rfl rfl hd
  | cons e later => exact step_engine_command rfl rfl rfl hd

/-- Settles O5: the decoded word is held, or, if it is RELEASE, written next. -/
theorem placedWordRunsNext : Obligations.PlacedWordRunsNext := by
  intro s nbits w i h
  have hd := decode_tableWord h
  by_cases hop : cmdOp (tableWord nbits w) = 0xF#4
  · have hi : i = .release (cmdReserved (tableWord nbits w)) := by
      rw [decode, if_pos hop] at hd
      cases hd
      rfl
    exact ⟨_, hi ▸ step_placed_release hop, rfl⟩
  · exact ⟨_, step_placed_held hop hd, rfl⟩

/-! ### Return and completion (R232, R250, R251) -/

/-- Settles O40: RELEASE is `releaseReturn`, whatever bits it carries. -/
theorem releaseReturnsToIdle : Obligations.ReleaseReturnsToIdle := by
  intro s u
  have hexec : exec (.release u) s = .next (releaseReturn s) := rfl
  refine ⟨fun hs => ?_, fun hs => ?_⟩
  · rw [hexec, releaseReturn, if_pos hs]
  · rw [hexec, releaseReturn, if_neg hs]

/-- Settles O41: the payload is the buffer on success, and empty else. -/
theorem finishReportsTheResult : Obligations.FinishReportsTheResult := fun _ => ⟨rfl, rfl⟩

/-- Settles O42: each condition has its code. -/
theorem raiseRecordsOnlyTheStatus : Obligations.RaiseRecordsOnlyTheStatus := fun _ => ⟨rfl, rfl, rfl, rfl⟩

/-! ### Quiet (R294) -/

/-- Settles O56: with nothing scheduled the ENGINE has the turn, and in IDLE and DONE it does nothing with it. -/
theorem quietWithoutTheHost : Obligations.QuietWithoutTheHost := by
  intro s hin hs
  rcases engineTurn_cases s with ⟨_, _, hbusy, _⟩ | ⟨_, _, hbusy, _⟩ | ⟨_, hsettle⟩
  · exact absurd hbusy hs
  · exact absurd hbusy hs
  · exact step_of_settle ((nextMove_nil hin).trans hsettle)

end Sys2Proof.Proofs
end

section
/-! PROOFS. The buffer commands (spec/40_buffer.md R130 to R133): RESERVE, APPEND and APPENDSPAN reserve room and then
store a list of cells from `OUT[LEN]` on; that is said once, for any list. -/

namespace Sys2Proof.Proofs

open Sys2Proof.Machine Sys2Proof.Reference

/-- Settles O8: `buf_new` and a success of nothing. -/
theorem bufnewEmptiesTheBuffer : Obligations.BufnewEmptiesTheBuffer := by
  intro s
  refine ⟨finish Config.stSuccess (setRes0 0 (bufNew s)), rfl, ⟨rfl, rfl, rfl, rfl, rfl⟩, rfl, rfl, rfl,
    cellAt_bufNew s, ?_⟩
  simp [SameHost, SameWork, SameWorkButK, SameTok]

/-! ### Operands in the legal ranges (R96) -/

theorem cellOperand_eq_some {a : Word} (h : a.toNat < 2 ^ 16) : ∃ v, cellOperand a = some v :=
  ⟨a.setWidth 16, by
    conv_lhs => rw [show a = (a.setWidth 16).setWidth 64 by bv_omega]
    exact cellOperand_setWidth _⟩

theorem countOperand_eq_some {a : Word} (h : a.toNat ≤ 16) : countOperand a = some a.toNat := if_pos h

/-! ### Reserving (R131) -/

theorem bufReserve_overflow {n : Nat} {s : State} (h : Config.maxSafeLen < s.len.toNat + n) :
    bufReserve n s = .raise .lengthOverflow s := if_pos h

theorem bufReserve_bufferOnly {n : Nat} {s t : State} (h : bufReserve n s = .go t) :
    BufferOnly s t ∧ t.len = s.len ∧ t.out = s.out := by
  obtain ⟨-, hframe⟩ := bufReserve_go h
  exact ⟨by rw [BufferOnly, hframe], by rw [hframe], by rw [hframe]⟩

/-- A reserve leaves the capacity where the cells fit, and else makes it the least doubling that holds them. -/
theorem bufReserve_grewFor {n : Nat} {s t : State} (hcap : 1 ≤ s.cap.toNat) (h : bufReserve n s = .go t) :
    GrewFor n s t ∧ s.len.toNat + n ≤ t.cap.toNat := by
  rcases bufReserve_cases n s with ⟨_, he⟩ | ⟨_, hfit, he⟩ | ⟨hsafe, hlt, he⟩
  · rw [he] at h; cases h
  · rw [he] at h; cases h
    exact ⟨⟨fun _ => ⟨rfl, rfl⟩, fun hlt => absurd hlt (Nat.not_lt.mpr hfit)⟩, hfit⟩
  · rw [he] at h; cases h
    have hleast := grownCap_least hcap hsafe
    rw [← grownCap_toNat hcap hlt hsafe] at hleast
    obtain ⟨g, hdoubled, hroom, hmin⟩ := hleast
    exact ⟨⟨fun hfit => absurd hlt (Nat.not_lt.mpr hfit), fun _ => ⟨⟨g, hdoubled, hroom, hmin⟩, rfl⟩⟩, hroom⟩

/-! ### Storing a list of cells (R63, R133) -/

theorem storeCells_len {vs : List Cell} {s : State} (h : s.len.toNat + vs.length ≤ Config.maxSafeLen) :
    (storeCells vs s).len.toNat = s.len.toNat + vs.length := by
  induction vs generalizing s with
  | nil => rfl
  | cons v rest ih =>
    rw [List.length_cons] at h ⊢
    have hone := storeCell_len_toNat (s := s) v (by omega)
    rw [storeCells, ih (by omega)]
    omega

/-- Below and above the stored list every cell reads as before; within it, its cells in order. -/
theorem outCell_storeCells {vs : List Cell} {s : State} (h : s.len.toNat + vs.length ≤ Config.maxSafeLen) (i : Nat) :
    outCell (storeCells vs s) i = if i < s.len.toNat then outCell s i else vs[i - s.len.toNat]?.getD (outCell s i) := by
  induction vs generalizing s with
  | nil => simp [storeCells]
  | cons v rest ih =>
    rw [List.length_cons] at h
    have hone := storeCell_len_toNat (s := s) v (by omega)
    rw [storeCells, ih (by omega), hone, outCell_storeCell]
    rcases Nat.lt_trichotomy i s.len.toNat with hlt | rfl | hgt
    · rw [if_pos (by omega), if_neg (by omega), if_pos hlt]
    · simp
    · rw [if_neg (by omega), if_neg (by omega), if_neg (by omega),
        show i - s.len.toNat = i - (s.len.toNat + 1) + 1 by omega, List.getElem?_cons_succ]

theorem bufferOnly_frame {s t : State} (h : BufferOnly s t) : SameHost s t ∧ SameWork s t ∧ SameTok s t := by
  rw [h]
  simp [SameHost, SameWork, SameWorkButK, SameTok]

/-! ### RESERVE, APPEND and APPENDSPAN (R131 to R133) -/

/-- The end of a command that has reserved room in `u` and stores `vs` there. -/
def stored (vs : List Cell) (u : State) : State := finish Config.stSuccess (res0Len (storeCells vs u))

/-- What such a command does, for a reserve of as many cells as it stores or more. -/
theorem stored_spec {n : Nat} {vs : List Cell} {s u : State} (hu : bufReserve n s = .go u) (hvs : vs.length ≤ n) :
    Completed (stored vs u) 1 (s.len + BitVec.ofNat 64 vs.length) (s.len + BitVec.ofNat 64 vs.length) ∧
      (stored vs u).len.toNat = s.len.toNat + vs.length ∧
      (1 ≤ s.cap.toNat → GrewFor n s (stored vs u) ∧ s.len.toNat + n ≤ (stored vs u).cap.toNat) ∧
      (∀ i, outCell (stored vs u) i =
        if i < s.len.toNat then outCell s i else vs[i - s.len.toNat]?.getD (outCell s i)) ∧
      SameHost s (stored vs u) ∧ SameWork s (stored vs u) ∧ SameTok s (stored vs u) := by
  obtain ⟨hsafe, -⟩ := bufReserve_go hu
  obtain ⟨hframe, hulen, huout⟩ := bufReserve_bufferOnly hu
  have hroom : u.len.toNat + vs.length ≤ Config.maxSafeLen := by rw [hulen]; omega
  have hlen : (storeCells vs u).len.toNat = s.len.toNat + vs.length := by rw [storeCells_len hroom, hulen]
  have hword : (storeCells vs u).len = s.len + BitVec.ofNat 64 vs.length := by
    have hmax : Config.maxSafeLen = 2 ^ 53 - 1 := rfl
    bv_omega
  obtain ⟨hcap, hgrow⟩ := storeCells_cap_grow vs u
  refine ⟨⟨rfl, hword, hword, rfl, rfl⟩, hlen, fun hpos => ?_, fun i => ?_,
    bufferOnly_frame (t := storeCells vs u) (hframe.trans (storeCells_bufferOnly vs u))⟩
  · obtain ⟨hgrew, hfit⟩ := bufReserve_grewFor hpos hu
    rw [GrewFor, ← hcap, ← hgrow] at hgrew
    rw [← hcap] at hfit
    exact ⟨hgrew, hfit⟩
  · have hsame : ∀ i, outCell u i = outCell s i := fun i => by
      rw [outCell, outCell, huout, hframe]
    have hcell := outCell_storeCells hroom i
    rw [hulen, hsame] at hcell
    exact hcell

theorem exec_reserve_go {s u : State} (hu : bufReserve s.arg0.toNat s = .go u) :
    exec .reserve s = .next (stored [] u) := by
  show execReserve s = _
  rw [execReserve, reserveOperand, hu]
  rfl

theorem exec_append_go {s u : State} {v : Cell} (hv : cellOperand s.arg0 = some v) (hu : bufReserve 1 s = .go u) :
    exec .append s = .next (stored [v] u) := by
  show execAppend s = _
  rw [execAppend, hv, withOperand_some, bufAppend, hu]
  rfl

theorem exec_appendspan_go {s u : State} {n : Nat} (hn : countOperand s.arg0 = some n)
    (hu : bufReserve n s = .go u) : exec .appendspan s = .next (stored (tokCells u n) u) := by
  show execAppendspan s = _
  rw [execAppendspan, hn, withOperand_some, bufAppendSpan, hu]
  rfl

/-- Settles O9: RESERVE stores nothing. -/
theorem reserveGrowsByDoubling : Obligations.ReserveGrowsByDoubling := by
  intro s hcap hsafe
  obtain ⟨u, hu⟩ := bufReserve_total (s := s) hsafe
  obtain ⟨hcompleted, -, hgrowth, hout, hframe⟩ := stored_spec (vs := []) hu (Nat.zero_le _)
  obtain ⟨hgrew, hroom⟩ := hgrowth hcap
  rw [List.length_nil, BitVec.ofNat_eq_ofNat, BitVec.add_zero] at hcompleted
  exact ⟨_, exec_reserve_go hu, hcompleted, (bufReserve_bufferOnly hu).2.1, hgrew, hroom,
    fun i => (hout i).trans (by simp), hframe⟩

/-- Settles O10: the overflow check comes first, and what it raises is all that happens. -/
theorem lengthOverflowChangesNothingElse : Obligations.LengthOverflowChangesNothingElse := by
  intro s
  refine ⟨fun h => ?_, fun harg h => ?_, fun harg h => ?_⟩
  · show execReserve s = _
    rw [execReserve, reserveOperand, bufReserve_overflow h]
    rfl
  · obtain ⟨v, hv⟩ := cellOperand_eq_some harg
    have hover : Config.maxSafeLen < s.len.toNat + 1 := Nat.lt_succ_of_le h
    show execAppend s = _
    rw [execAppend, hv, withOperand_some, bufAppend, bufReserve_overflow hover]
    rfl
  · show execAppendspan s = _
    rw [execAppendspan, countOperand_eq_some harg, withOperand_some, bufAppendSpan, bufReserve_overflow h]
    rfl

/-- Settles O11: APPEND stores the one cell. -/
theorem appendStoresAtLen : Obligations.AppendStoresAtLen := by
  intro s v harg hcap hlen
  obtain ⟨u, hu⟩ := bufReserve_total (n := 1) (s := s) hlen
  obtain ⟨hcompleted, hlen', hgrowth, hout, hframe⟩ := stored_spec (vs := [v]) hu (Nat.le_refl 1)
  refine ⟨_, exec_append_go (harg ▸ cellOperand_setWidth v) hu, hcompleted, hlen', (hgrowth hcap).1, fun i => ?_,
    hframe⟩
  rw [hout i]
  rcases Nat.lt_trichotomy i s.len.toNat with hlt | rfl | hgt
  · rw [if_pos hlt, if_neg (by omega)]
  · simp
  · rw [if_neg (by omega), if_neg (by omega), List.getElem?_eq_none (by simp; omega)]
    rfl

/-- Settles O12: APPENDSPAN stores the first `ARG0` cells of `TOK`. -/
theorem appendspanStoresTheSpan : Obligations.AppendspanStoresTheSpan := by
  intro s harg hcap hsafe
  obtain ⟨u, hu⟩ := bufReserve_total (s := s) hsafe
  have htok : tokCells u s.arg0.toNat = tokCells s s.arg0.toNat := by
    rw [(bufReserve_bufferOnly hu).1]
    rfl
  have hcount : (tokCells s s.arg0.toNat).length = s.arg0.toNat := by simpa [tokCells] using harg
  have hexec := exec_appendspan_go (countOperand_eq_some harg) hu
  rw [htok] at hexec
  obtain ⟨hcompleted, hlen, hgrowth, hout, hframe⟩ := stored_spec (vs := tokCells s s.arg0.toNat) hu hcount.le
  rw [hcount] at hcompleted hlen
  rw [BitVec.ofNat_toNat, BitVec.setWidth_eq] at hcompleted
  refine ⟨_, hexec, hcompleted, hlen, (hgrowth hcap).1, fun j hj => ?_, fun i hi => ?_, hframe⟩
  · rw [hout, if_neg (by omega), Nat.add_sub_cancel_left]
    simp [tokCells, hj, symbolCell]
  · rw [hout]
    rcases hi with hlt | hge
    · rw [if_pos hlt]
    · rw [if_neg (by omega), List.getElem?_eq_none (by omega)]
      rfl

end Sys2Proof.Proofs
end

section
/-! PROOFS. The symbol commands and the generator (spec/41_symbol_units.md, spec/44_padding_generator.md): LOOKUP,
TOKEN, NEXT, the nibbles of a character with their tokens, and `NEXT_REF`. -/

namespace Sys2Proof.Proofs

open Sys2Proof.Machine Sys2Proof.Reference

/-! ### Commands that write `RES0` alone (R152, R200) -/

/-- A success that has set `RES0` and nothing else. -/
theorem setRes0_completed (v : Word) (s : State) :
    Completed (finish Config.stSuccess (setRes0 v s)) 1 s.len v ∧
      SameBufferRegs s (finish Config.stSuccess (setRes0 v s)) ∧ SameOut s (finish Config.stSuccess (setRes0 v s)) ∧
      SameHost s (finish Config.stSuccess (setRes0 v s)) ∧ SameWork s (finish Config.stSuccess (setRes0 v s)) ∧
      SameTok s (finish Config.stSuccess (setRes0 v s)) := by
  refine ⟨⟨rfl, rfl, rfl, rfl, rfl⟩, ?_, fun i => rfl, ?_⟩
  · simp [SameBufferRegs]
  · simp [SameHost, SameWork, SameWorkButK, SameTok]

/-- A zero-extended value has no bit set above its own. -/
theorem extractLsb'_setWidth_high {k n : Nat} (v : BitVec k) (hkn : k + n = 64) :
    (v.setWidth 64).extractLsb' k n = 0 := by
  ext i hi
  have hlt : k + i < 64 := by omega
  simp [hlt]

theorem extractLsb'_setWidth_low {k : Nat} (v : BitVec k) (hk : k ≤ 64) : (v.setWidth 64).extractLsb' 0 k = v := by
  ext i hi
  have hlt : i < 64 := by omega
  simp [hlt, hi]

theorem seedOperand_setWidth (v : U32) : seedOperand (v.setWidth 64) = some v := by
  rw [seedOperand, if_pos (extractLsb'_setWidth_high v rfl), extractLsb'_setWidth_low v (by decide)]

theorem nibbleOperand_setWidth (t : Nibble) : nibbleOperand (t.setWidth 64) = some t := by
  rw [nibbleOperand, if_pos (extractLsb'_setWidth_high t rfl), extractLsb'_setWidth_low t (by decide)]

/-- Settles O24: a zero-extended seed is a legal operand, and NEXT sets `RES0` alone. -/
theorem nextReturnsTheGenerator : Obligations.NextReturnsTheGenerator := by
  intro s seed harg
  refine ⟨_, ?_, setRes0_completed ((Config.nextFn seed).setWidth 64) s⟩
  show execNext s = _
  rw [execNext, harg, seedOperand_setWidth]
  rfl

/-! ### LOOKUP (R152) -/

/-- The first index at which a symbol stands is what `lookup` answers for it: 14 and 15 are the second of theirs. -/
theorem lookup_signExtend_of_first {k : Nibble}
    (hfirst : ∀ k' : Nibble, k' < k → symbolCell (alpha k) ≠ symbolCell (alpha k')) :
    (lookup (symbolCell (alpha k))).signExtend 64 = k.setWidth 64 := by
  have h14 : k ≠ 14 := fun h => hfirst 0 (h ▸ by decide) (h ▸ by decide)
  have h15 : k ≠ 15 := fun h => hfirst 1 (h ▸ by decide) (h ▸ by decide)
  rw [lookup_alpha, if_neg h14, if_neg h15]
  revert k
  decide

/-- Settles O16: `lookup` answers the first index of a symbol and the miss value for any other cell. -/
theorem lookupReturnsFirstIndex : Obligations.LookupReturnsFirstIndex := by
  intro s c harg
  obtain ⟨⟨hstatus, hlen, hres, hdone⟩, hframe⟩ := setRes0_completed ((lookup c).signExtend 64) s
  refine ⟨finish Config.stSuccess (setRes0 ((lookup c).signExtend 64) s), ?_, ⟨hstatus, hlen, rfl, hdone⟩,
    fun k hk hfirst => ?_, fun hmiss => ?_, hframe⟩
  · show execLookup s = _
    rw [execLookup, harg, cellOperand_setWidth]
    rfl
  · subst hk
    rw [hres, lookup_signExtend_of_first hfirst]
  · rw [hres, lookup_eq_miss hmiss]
    rfl

/-! ### TOKEN (R151) -/

theorem mem_ambiguous_iff (t : Nibble) : t ∈ ([0, 1, 14, 15] : List Nibble) ↔ isAmbiguous t = true := by
  revert t
  decide

/-- `token` from `K = 0`: the symbols at the start of `TOK`, their number in `K`, and nothing else changed. -/
theorem token_of_k_zero (t : Nibble) {s : State} (hk : s.k = 0) :
    (token t s).k = (if isAmbiguous t then 2 else 1) ∧
      (token t s).tok =
        (if isAmbiguous t then (s.tok.setIfInBounds 0 (alpha t)).setIfInBounds 1 (alpha (t >>> 3))
          else s.tok.setIfInBounds 0 (alpha t)) ∧
      TokOnly s (token t s) := by
  have hframe := (token_spec t (s := s) (by simp [hk])).2.2
  rw [← and_assoc]
  refine ⟨?_, hframe⟩
  rw [token, ambiguous_eq]
  split_ifs <;> simp only [pushTok_k, pushTok_tok, hk] <;> exact ⟨rfl, rfl⟩

/-- Settles O18: `token` from `K = 0`, with its count in `RES0`. -/
theorem tokenWritesTheSymbols : Obligations.TokenWritesTheSymbols := by
  intro s t harg
  obtain ⟨u, hu⟩ : ∃ u, u = token t { s with k := 0 } := ⟨_, rfl⟩
  obtain ⟨hk, htok, hframe⟩ := token_of_k_zero t (s := { s with k := 0 }) rfl
  rw [← hu] at hk htok hframe
  have hcount : u.k.setWidth 64 = if isAmbiguous t then 2 else 1 := by
    rw [hk]
    split_ifs <;> rfl
  have hexec : exec .token s = .next (finish Config.stSuccess (setRes0 (u.k.setWidth 64) u)) := by
    show execToken s = _
    rw [execToken, show nibbleOperand s.arg0 = some t from harg ▸ nibbleOperand_setWidth t, withOperand_some, ← hu]
    rfl
  simp only [mem_ambiguous_iff]
  refine ⟨_, hexec, ⟨rfl, ?_, hcount, rfl, rfl⟩, ?_, ?_, fun j hj => ?_, rfl, ?_⟩
  · rw [hframe]
    rfl
  · simp only [finish_tok, setRes0_tok, htok]
    split_ifs <;> simp
  · simp only [finish_tok, setRes0_tok, htok]
    split_ifs <;> simp
  · have h0 : 0 ≠ j.val := by omega
    have h1 : 1 ≠ j.val := by omega
    simp only [finish_tok, setRes0_tok, htok]
    split_ifs <;> simp [h0, h1]
  · rw [hframe]
    simp [SameBufferRegs, SameOut, SameHost, SameWorkButK, outCell]

/-! ### The laws connecting the units (R153) -/

/-- A nibble that is not ambiguous is the first index of its symbol. -/
theorem lookup_of_not_ambiguous {t : Nibble} (h : isAmbiguous t = false) :
    lookup (symbolCell (alpha t)) = t.setWidth 6 ∧ 2 ≤ t.toNat := by
  rw [lookup_alpha]
  revert t
  decide

/-- Settles O21: a direct nibble is its symbol's first index; the halves of an escape are its outer bits. -/
theorem lookupInvertsTokens : Obligations.LookupInvertsTokens := by
  intro t
  rw [ambiguous_eq]
  refine ⟨fun h => ?_, fun h => ?_⟩
  · obtain ⟨hlookup, h2⟩ := lookup_of_not_ambiguous h
    have hnat : (t.setWidth 6).toNat = t.toNat := by bv_omega
    rw [hlookup, hnat]
    exact ⟨rfl, h2⟩
  · obtain ⟨hfirst, hsecond⟩ := lookup_token_symbols ((mem_ambiguous_iff t).mpr h)
    rw [hfirst, hsecond]
    revert t
    decide

/-! ### The nibbles of a character and their tokens (R99, R100, R150) -/

/-- A character is 0, or has a lowest nibble and a rest. -/
theorem cell_induction {P : Cell → Prop} (zero : P 0) (step : ∀ c : Cell, c ≠ 0 → P (c >>> 4) → P c)
    (c : Cell) : P c := by
  induction h : c.toNat using Nat.strong_induction_on generalizing c with
  | _ n ih =>
    by_cases h0 : c = 0
    · exact h0 ▸ zero
    · have hpos : c.toNat ≠ 0 := fun hc => h0 (BitVec.eq_of_toNat_eq hc)
      exact step c h0 (ih _ (by rw [toNat_dropNibble]; omega) _ rfl)

theorem length_flatMap_tokenOf (ns : List Nibble) :
    (ns.flatMap tokenOf).length = ns.length + ns.countP isAmbiguous := by
  induction ns with
  | nil => rfl
  | cons t rest ih =>
    rw [List.flatMap_cons, List.length_append, ih, tokenOf_length, List.length_cons, List.countP_cons]
    split_ifs <;> omega

theorem length_bodyOf (c : Cell) : (bodyOf c).length = (nibblesOf c).length + (nibblesOf c).countP isAmbiguous := by
  rw [bodyOf, List.length_map, length_flatMap_tokenOf]

/-- Settles O22: the loop's law at four passes, from an empty `TOK`. -/
theorem nibbleLoopFillsTok : Obligations.NibbleLoopFillsTok := by
  intro s c
  have hroom : 0 + 2 * 4 ≤ 16 := by decide
  obtain ⟨hch, hk, htok, -⟩ := encodeNibbles_spec 4 (s := { s with ch := c, k := 0 }) c.isLt hroom
  have hlen := length_bodyOf_le c
  rw [bodyOf, List.length_map] at hlen
  have hk' : (encodeNibbles 4 { s with ch := c, k := 0 }).k.toNat = ((nibblesOf c).flatMap tokenOf).length :=
    hk.trans (Nat.zero_add _)
  exact ⟨_, rfl, hch, by omega, by rw [hk', length_flatMap_tokenOf], htok⟩

/-- The reference index of a token's symbols: that of a direct one, and those of an escape pair. -/
theorem indexOf_direct {t : Nibble} (h : isAmbiguous t = false) :
    indexOf (symbolCell (alpha t)) = some t.toNat ∧ ¬t.toNat < 2 := by
  revert t
  decide

theorem indexOf_pair {t : Nibble} (h : isAmbiguous t = true) :
    indexOf (symbolCell (alpha t)) = some (t.toNat % 2) ∧
      indexOf (symbolCell (alpha (t >>> 3))) = some (t.toNat / 8) ∧ t.toNat % 2 < 2 ∧ t.toNat / 8 < 2 ∧
      BitVec.ofNat 4 (t.toNat % 2 + 14 * (t.toNat / 8)) = t := by
  revert t
  decide

/-- A token at the start of a body spells its nibble, and leaves no half pending (R104). -/
theorem bodyNibbles_token (t : Nibble) (body : List Cell) :
    bodyNibbles none ((tokenOf t).map symbolCell ++ body) = (bodyNibbles none body).map (t :: ·) := by
  by_cases h : isAmbiguous t = true
  · obtain ⟨hfirst, hsecond, hlow, hhigh, hsum⟩ := indexOf_pair h
    simp only [tokenOf, h, if_true, List.map_cons, List.map_nil, List.cons_append, List.nil_append, bodyNibbles, hfirst,
      hsecond, hlow, hhigh, hsum]
  · rw [Bool.not_eq_true] at h
    obtain ⟨hindex, h2⟩ := indexOf_direct h
    simp only [tokenOf, h, Bool.false_eq_true, if_false, List.map_cons, List.map_nil, List.cons_append,
      List.nil_append, bodyNibbles, hindex, h2, BitVec.ofNat_toNat, BitVec.setWidth_eq]

theorem bodyNibbles_flatMap_tokenOf (ns : List Nibble) :
    bodyNibbles none ((ns.flatMap tokenOf).map symbolCell) = some ns := by
  induction ns with
  | nil => rfl
  | cons t rest ih => rw [List.flatMap_cons, List.map_append, bodyNibbles_token, ih, Option.map_some]

theorem bodyNibbles_bodyOf (c : Cell) : bodyNibbles none (bodyOf c) = some (nibblesOf c) :=
  bodyNibbles_flatMap_tokenOf (nibblesOf c)

/-- A character is its lowest nibble under the rest of it. -/
theorem nibbleAt_or_shift (c : Cell) : (nibbleAt c 0).setWidth 16 ||| ((c >>> 4) <<< 4) = c := by
  ext i hi
  by_cases h : i < 4
  · simp [nibbleAt, h, hi]
  · simp [nibbleAt, h, hi, Nat.add_sub_cancel' (Nat.le_of_not_lt h)]

theorem foldr_nibblesOf (c : Cell) :
    (nibblesOf c).foldr (fun (n : Nibble) (acc : Cell) => n.setWidth 16 ||| (acc <<< 4)) 0 = c := by
  induction c using cell_induction with
  | zero => rfl
  | step c h0 ih => rw [nibblesOf_cons h0, List.foldr_cons, ih, nibbleAt_or_shift]

theorem assemble_nibblesOf (c : Cell) : assemble (nibblesOf c) = c := by
  rw [assemble, List.take_of_length_le (length_nibblesOf_le c), foldr_nibblesOf]

/-- The highest nibble listed is not 0: the listing stops where the rest is 0. -/
theorem getLast?_nibblesOf_ne_zero (c : Cell) : ∀ t, (nibblesOf c).getLast? = some t → t ≠ 0 := by
  induction c using cell_induction with
  | zero =>
    intro t ht
    rw [nibblesOf_zero] at ht
    cases ht
  | step c h0 ih =>
    intro t ht
    rw [nibblesOf_cons h0] at ht
    by_cases hrest : c >>> 4 = 0
    · rw [hrest, nibblesOf_zero, List.getLast?_singleton, Option.some.injEq] at ht
      subst ht
      intro hzero
      have hc := nibbleAt_or_shift c
      rw [hzero, hrest] at hc
      exact h0 hc.symm
    · rw [nibblesOf_cons hrest, List.getLast?_cons_cons, ← nibblesOf_cons hrest] at ht
      exact ih t ht

/-- Settles O23: the tokens spell the nibbles, the nibbles add up to the character, and the last is not 0. -/
theorem tokensRecoverTheCharacter : Obligations.TokensRecoverTheCharacter := fun c =>
  ⟨bodyNibbles_bodyOf c, assemble_nibblesOf c, getLast?_nibblesOf_ne_zero c⟩

/-! ### `NEXT_REF` (R203) -/

/-- The halvings a counter below `2 ^ fuel` needs to reach zero; passes allowed beyond them are not made. -/
theorem nextRefLoop_extra (extra fuel : Nat) (n x : U32) (h : n.toNat < 2 ^ fuel) :
    nextRefLoop (fuel + extra) n x = nextRefLoop fuel n x := by
  induction fuel generalizing n x with
  | zero =>
    obtain rfl : n = 0 := BitVec.eq_of_toNat_eq (by simpa using h)
    cases extra <;> simp [nextRefLoop]
  | succ fuel ih =>
    have hhalf : (n >>> 1).toNat < 2 ^ fuel := by
      rw [BitVec.toNat_ushiftRight, Nat.shiftRight_eq_div_pow]
      rw [Nat.pow_succ] at h
      omega
    rw [Nat.succ_add, nextRefLoop, nextRefLoop, ih _ _ hhalf]

/-- Settles O26: a 32-bit counter is below `2 ^ 32`. -/
theorem nextRefLoopEnds : Obligations.NextRefLoopEnds := fun extra n x =>
  ⟨nextRefLoop_extra extra 32 n x n.isLt, BitVec.ushiftRight_eq_zero (Nat.le_refl 32)⟩

/-- Settles O25: each value by running the loop. -/
theorem nextRefTableValues : Obligations.NextRefTableValues := by
  unfold Obligations.NextRefTableValues
  simp [nextRef, nextRefLoop, oddUpdate, evenUpdate, Config.c1, Config.c2]

end Sys2Proof.Proofs
end

section
/-! PROOFS. The laws of ENCODE (spec/42_canonical_encode.md R167, R168): the length and the cells of the Encoded
Stream. -/

namespace Sys2Proof.Proofs

open Sys2Proof.Machine Sys2Proof.Reference

theorem length_payload (t : State) : (payload t).length = t.payloadLen.toNat := by simp [payload]

/-! ### The length (R167) -/

/-- A record's space, and each of its body's symbols twice: once as itself and once as a dot. -/
theorem length_encodedStream (text : List Cell) :
    (encodedStream text).length =
      text.length + 2 * (text.map fun c => (nibblesOf c).length + (nibblesOf c).countP isAmbiguous).sum := by
  induction text with
  | nil => rfl
  | cons c rest ih =>
    rw [encodedStream, List.flatMap_cons, List.length_append, ← encodedStream, ih, length_record, length_bodyOf,
      List.length_cons, List.map_cons, List.sum_cons]
    omega

theorem length_encodedStream_le (text : List Cell) : (encodedStream text).length ≤ 17 * text.length :=
  length_flatMap_le record 17 text fun c _ => by
    have := length_bodyOf_le c
    rw [length_record]
    omega

/-! ### The cells (R61, R167) -/

theorem mem_streamCells_iff (c : Cell) : c ∈ streamCells ↔ c ∈ indexedCells := by
  rw [indexedCells_eq]
  rfl

theorem symbolCell_alpha_mem_streamCells (t : Nibble) : symbolCell (alpha t) ∈ streamCells :=
  (mem_streamCells_iff _).mpr (symbolCell_alpha_mem t)

theorem symbolCell_tokenOf_mem {t : Nibble} {v : Symbol} (h : v ∈ tokenOf t) : symbolCell v ∈ streamCells := by
  unfold tokenOf at h
  split_ifs at h
  · rcases List.mem_pair.mp h with rfl | rfl
    · exact symbolCell_alpha_mem_streamCells t
    · exact symbolCell_alpha_mem_streamCells (t >>> 3)
  · obtain rfl := List.mem_singleton.mp h
    exact symbolCell_alpha_mem_streamCells t

/-- A record is made of dots, a space and symbols of the alphabet. -/
theorem mem_streamCells_of_mem_record {c v : Cell} (h : v ∈ record c) : v ∈ streamCells := by
  rw [record, List.mem_append, List.mem_cons] at h
  rcases h with hdot | rfl | hbody
  · rw [List.eq_of_mem_replicate hdot]
    exact symbolCell_alpha_mem_streamCells 1
  · exact symbolCell_alpha_mem_streamCells 0
  · obtain ⟨symbol, hsymbol, rfl⟩ := List.mem_map.mp hbody
    obtain ⟨t, _, ht⟩ := List.mem_flatMap.mp hsymbol
    exact symbolCell_tokenOf_mem ht

theorem mem_streamCells_of_mem_encodedStream {text : List Cell} {v : Cell} (h : v ∈ encodedStream text) :
    v ∈ streamCells := by
  obtain ⟨c, _, hv⟩ := List.mem_flatMap.mp h
  exact mem_streamCells_of_mem_record hv

/-- Settles O29: the laws of the Encoded Stream, which is the payload. -/
theorem encodeLengthLaw : Obligations.EncodeLengthLaw := by
  intro s hpos hlimit
  obtain ⟨t, hrun, ⟨hstatus, -⟩, hpayload, -⟩ := encodePayloadIsEncodedStream s hpos hlimit
  have hinput := length_inputCells s
  have hlen : t.payloadLen.toNat = (encodedStream (inputCells s)).length := by rw [← length_payload, hpayload]
  have hle := length_encodedStream_le (inputCells s)
  have hsum := length_encodedStream (inputCells s)
  rw [hinput] at hsum hle
  exact ⟨t, hrun, hstatus, hlen.trans hsum, by omega, by omega, fun c hc =>
    mem_streamCells_of_mem_encodedStream (hpayload ▸ hc)⟩

/-! ### Zero characters (R168) -/

theorem encodedStream_replicate_zero (n : Nat) : encodedStream (List.replicate n 0) = List.replicate n spaceCell := by
  induction n with
  | zero => rfl
  | succ n ih =>
    rw [List.replicate_succ, encodedStream, List.flatMap_cons, ← encodedStream, ih]
    rfl

theorem inputCells_eq_replicate {s : State} {v : Cell} (h : ∀ i, i < s.arg0.toNat → inCell s i = v) :
    inputCells s = List.replicate s.arg0.toNat v :=
  List.eq_replicate_iff.mpr ⟨length_inputCells s, fun c hc => by
    obtain ⟨i, hi, rfl⟩ := List.mem_map.mp hc
    exact h i (List.mem_range.mp hi)⟩

/-- Settles O30: the record of a zero character is one space. -/
theorem zeroCharactersEncodeAsSpaces : Obligations.ZeroCharactersEncodeAsSpaces := by
  intro s hpos hlimit hzero
  obtain ⟨t, hrun, ⟨hstatus, -, hres, hdone⟩, hpayload, -⟩ := encodePayloadIsEncodedStream s hpos hlimit
  rw [inputCells_eq_replicate hzero, encodedStream_replicate_zero] at hpayload
  have hlen : t.payloadLen = s.arg0 :=
    BitVec.eq_of_toNat_eq (by rw [← length_payload, hpayload, List.length_replicate])
  exact ⟨t, hrun, ⟨hstatus, hlen, hres, hdone⟩, hpayload⟩

end Sys2Proof.Proofs
end

section
/-! PROOFS. DECODE of a rejected stream, and the laws of DECODE (spec/43_canonical_decode.md R183, R184, R186, R187). -/

namespace Sys2Proof.Proofs

open Sys2Proof.Machine Sys2Proof.Reference

/-! ### A body that cannot be read (R184) -/

theorem indexOf_eq_none_iff (c : Cell) : indexOf c = none ↔ c ∉ streamCells := by
  rw [indexOf, List.findIdx?_eq_none_iff]
  refine ⟨fun h hc => by simpa using h c hc, fun h v hv => ?_⟩
  rw [beq_eq_false_iff_ne]
  exact fun hvc => h (hvc ▸ hv)

theorem lookup_of_indexOf_none {c : Cell} (h : indexOf c = none) : lookup c = lookupMiss :=
  lookup_eq_miss_of_notMem fun hc => (indexOf_eq_none_iff c).mp h ((mem_streamCells_iff c).mpr hc)

theorem bodyNibbles_cons_of_index {c : Cell} {r : Nat} (p : Option Nat) (body : List Cell) (hc : indexOf c = some r) :
    bodyNibbles p (c :: body) = (bodyNibbles (symbolEffect p r).2 body).map ((symbolEffect p r).1 ++ ·) := by
  by_cases h2 : r < 2
  · cases p <;> simp [bodyNibbles, hc, symbolEffect, h2]
  · cases p <;> simp [bodyNibbles, hc, symbolEffect, h2]

/-- A body whose symbols all have an index spells nibbles, whatever half is pending before it. -/
theorem bodyNibbles_isSome {body : List Cell} (p : Option Nat) (h : ∀ c ∈ body, indexOf c ≠ none) :
    ∃ ns, bodyNibbles p body = some ns := by
  induction body generalizing p with
  | nil => exact ⟨[], by cases p <;> rfl⟩
  | cons c rest ih =>
    obtain ⟨r, hr⟩ := Option.ne_none_iff_exists'.mp (h c List.mem_cons_self)
    obtain ⟨ns, hns⟩ := ih (symbolEffect p r).2 fun v hv => h v (List.mem_cons_of_mem c hv)
    exact ⟨_, by rw [bodyNibbles_cons_of_index p rest hr, hns, Option.map_some]⟩

/-- A body of `k` cells cannot be read from a stream: it is too short, or one of the `k` cells is no symbol. -/
def Unreadable (k : Nat) (stream : List Cell) : Prop := stream.length < k ∨ ∃ c ∈ stream.take k, indexOf c = none

theorem unreadable_of_bodyNibbles {k : Nat} {stream : List Cell} (h : bodyNibbles none (stream.take k) = none) :
    Unreadable k stream := by
  by_contra hreadable
  have hindex : ∀ c ∈ stream.take k, indexOf c ≠ none := fun c hc hnone => hreadable (.inr ⟨c, hc, hnone⟩)
  obtain ⟨ns, hns⟩ := bodyNibbles_isSome none hindex
  rw [h] at hns
  cases hns

theorem bodyStep_at_end {s : State} (h : Unread s []) : bodyStep s = .raise .tooLarge s := by
  rw [bodyStep, if_pos (h.eq_nil_iff.mp rfl)]

theorem readSymbol_r {c : Cell} {rest : List Cell} {s : State} (hin : Unread s (c :: rest)) :
    (readSymbol s).r = lookup c :=
  congrArg lookup hin.nextCell_cons

theorem Unread.cur_ne {c : Cell} {rest : List Cell} {s : State} (hin : Unread s (c :: rest)) :
    s.cur.toNat ≠ s.inLen.toNat := fun h => List.cons_ne_nil _ _ (hin.eq_nil_iff.mpr h)

theorem bodyStep_no_symbol {c : Cell} {rest : List Cell} {s : State} (hin : Unread s (c :: rest))
    (hc : indexOf c = none) : bodyStep s = .raise .tooLarge (readSymbol s) := by
  simp [bodyStep, hin.cur_ne, readSymbol_r hin, lookup_of_indexOf_none hc]

theorem bodyStep_go {c : Cell} {r : Nat} {rest : List Cell} {s : State} (hin : Unread s (c :: rest))
    (hc : indexOf c = some r) : ∃ t, bodyStep s = .go t ∧ HalvesOnly (readSymbol s) t := by
  obtain ⟨hlook, h14⟩ := lookup_of_indexOf hc
  obtain ⟨hmiss, hslt⟩ := index_tests h14
  by_cases h2 : r < 2
  · exact ⟨bodyHalf (readSymbol s), by simp [bodyStep, hin.cur_ne, readSymbol_r hin, hlook, hmiss, hslt, h2],
      bodyHalf_frame _⟩
  · exact ⟨bodyDirect (readSymbol s), by simp [bodyStep, hin.cur_ne, readSymbol_r hin, hlook, hmiss, hslt, h2],
      bodyDirect_frame _⟩

/-- After a symbol the cursor and `BI` have passed it, and `COUNT` is as before. -/
theorem HalvesOnly.after_readSymbol {c : Cell} {rest : List Cell} {s t : State} (h : HalvesOnly (readSymbol s) t)
    (hin : Unread s (c :: rest)) : Unread t rest ∧ t.bi = s.bi + 1 ∧ t.count = s.count ∧ RecordOnly s t := by
  refine ⟨hin.advance_cons.congr ?_ ?_ ?_, ?_, ?_, ?_⟩
  all_goals rw [h]; rfl

/-- The body loop raises too-large at the first cell it cannot read. -/
theorem bodyLoop_raises (fuel : Nat) {stream : List Cell} {s : State} (hin : Unread s stream)
    (hcount : s.bi.toNat + fuel = s.count.toNat) (h : Unreadable fuel stream) :
    ∃ t, bodyLoop fuel s = .raise .tooLarge t ∧ RecordOnly s t := by
  induction fuel generalizing s stream with
  | zero => simp [Unreadable] at h
  | succ fuel ih =>
    have hlt : s.bi.toNat < s.count.toNat := by omega
    rw [bodyLoop, if_pos hlt]
    cases stream with
    | nil => exact ⟨s, by rw [bodyStep_at_end hin, Flow.bind_raise], rfl⟩
    | cons c rest =>
      cases hc : indexOf c with
      | none => exact ⟨readSymbol s, by rw [bodyStep_no_symbol hin hc, Flow.bind_raise], rfl⟩
      | some r =>
        obtain ⟨u, hu, hhalves⟩ := bodyStep_go hin hc
        obtain ⟨huin, hubi, hucount, huframe⟩ := hhalves.after_readSymbol hin
        have hbi : u.bi.toNat = s.bi.toNat + 1 := by
          have hbound := s.count.isLt
          bv_omega
        have hrest : Unreadable fuel rest := by
          simpa [Unreadable, hc] using h
        obtain ⟨t, ht, htframe⟩ := ih huin (by rw [hbi, hucount]; omega) hrest
        exact ⟨t, by rw [hu, Flow.bind_go, ht], huframe.trans htframe⟩

theorem readBody_raises {stream : List Cell} {s : State} (hin : Unread s stream)
    (h : Unreadable s.count.toNat stream) : ∃ t, readBody s = .raise .tooLarge t ∧ RecordOnly s t := by
  obtain ⟨t, ht, hframe⟩ := bodyLoop_raises s.count.toNat (s := { clearHalf s with j := 0, acc := 0, bi := 0 })
    (hin.congr rfl rfl rfl) (Nat.zero_add _) h
  exact ⟨t, ht, RecordOnly.trans (t := { clearHalf s with j := 0, acc := 0, bi := 0 }) rfl hframe⟩

/-! ### The first failure of a stream (R183, R184, R186) -/

/-- How the reference decoder rejects a stream: no dots before its end, a body that cannot be read, or a
later failure after a record. -/
theorem decodedWithin_error {fuel : Nat} {stream : List Cell} {x : Raise}
    (h : decodedWithin (fuel + 1) stream = .error x) :
    stream ≠ [] ∧ ∃ k, (stream.takeWhile (· == dotCell)).length = k ∧
      (k = 0 ∧ stream.drop (k + 1) ≠ [] ∧ x = .cannotDecode ∨
        k ≠ 0 ∧ Unreadable k (stream.drop (k + 1)) ∧ x = .tooLarge ∨
        k ≠ 0 ∧ ∃ body rest ns, body.length = k ∧ stream.drop (k + 1) = body ++ rest ∧
          bodyNibbles none body = some ns ∧ decodedWithin fuel rest = .error x) := by
  by_cases hnil : stream = []
  · simp [decodedWithin, hnil] at h
  refine ⟨hnil, _, rfl, ?_⟩
  obtain ⟨k, hk⟩ : ∃ k, (stream.takeWhile (· == dotCell)).length = k := ⟨_, rfl⟩
  simp only [decodedWithin, if_neg hnil, hk] at h ⊢
  by_cases hk0 : k = 0
  · rw [if_pos hk0] at h
    split_ifs at h with hrest
    exact .inl ⟨hk0, hrest, by simpa using h.symm⟩
  · rw [if_neg hk0] at h
    by_cases hlen : (stream.drop (k + 1)).length < k
    · rw [if_pos hlen] at h
      exact .inr (.inl ⟨hk0, .inl hlen, by simpa using h.symm⟩)
    · rw [if_neg hlen] at h
      cases hns : bodyNibbles none ((stream.drop (k + 1)).take k) with
      | none =>
        simp only [hns, Except.error.injEq] at h
        exact .inr (.inl ⟨hk0, unreadable_of_bodyNibbles hns, h.symm⟩)
      | some ns =>
        cases htail : decodedWithin fuel ((stream.drop (k + 1)).drop k) with
        | ok tail => simp only [hns, htail, reduceCtorEq] at h
        | error y =>
          simp only [hns, htail, Except.error.injEq] at h
          exact .inr (.inr ⟨hk0, _, _, ns, by rw [List.length_take]; omega, (List.take_append_drop k _).symm, hns,
            h ▸ htail⟩)

/-- Decoding fails in two ways only (R186). -/
theorem decodedWithin_error_code {fuel : Nat} {stream : List Cell} {x : Raise}
    (h : decodedWithin fuel stream = .error x) : x = .tooLarge ∨ x = .cannotDecode := by
  induction fuel generalizing stream with
  | zero => cases h
  | succ fuel ih =>
    obtain ⟨-, k, -, ⟨-, -, hx⟩ | ⟨-, -, hx⟩ | ⟨-, body, rest, ns, -, -, -, hrest⟩⟩ := decodedWithin_error h
    · exact .inr hx
    · exact .inl hx
    · exact ih hrest

/-- No dots, before the end of the input (R183). -/
theorem decodeLoop_no_dots {fuel : Nat} {s : State} (hmore : moreInput s = true) (hcount : (readPrefix s).count = 0)
    (hend : (readPrefix s).cur.toNat ≠ (readPrefix s).inLen.toNat) :
    decodeLoop (fuel + 1) s = .raise .cannotDecode (readPrefix s) := by
  rw [decodeLoop, if_pos hmore]
  simp only [hcount, hend, if_true, if_false]

/-- A body that cannot be read ends the loop (R184). -/
theorem decodeLoop_bad_body {fuel : Nat} {x : Raise} {s u : State} (hmore : moreInput s = true)
    (hcount : (readPrefix s).count ≠ 0) (hbody : readBody (readPrefix s) = .raise x u) :
    decodeLoop (fuel + 1) s = .raise x u := by
  rw [decodeLoop, if_pos hmore]
  simp only [if_neg hcount, hbody, Flow.bind_raise]

/-- A record that can be read: its character is appended, and the loop goes on after it. -/
theorem decodeLoop_past_record (fuel : Nat) {s : State} {stream body rest cs : List Cell} {ns : List Nibble}
    (hin : Unread s stream) (hne : stream ≠ []) (hk0 : (stream.takeWhile (· == dotCell)).length ≠ 0)
    (hbody : body.length = (stream.takeWhile (· == dotCell)).length)
    (hsplit : stream.drop ((stream.takeWhile (· == dotCell)).length + 1) = body ++ rest)
    (hns : bodyNibbles none body = some ns) (hholds : Holds s cs) (hlt : 2 * body.length < 2 ^ 32)
    (hsafe : cs.length + 1 ≤ Config.maxSafeLen) :
    ∃ v, decodeLoop (fuel + 1) s = decodeLoop fuel v ∧ Unread v rest ∧ Holds v (cs ++ [assemble ns]) ∧
      DecodeOnly s v := by
  obtain ⟨hcount, hpin, hpframe⟩ := readPrefix_spec hin
  rw [hsplit] at hpin
  have hcount0 : (readPrefix s).count ≠ 0 := fun h => hk0 (by rw [← hcount, h]; rfl)
  obtain ⟨u, hu, huin, hacc, huframe⟩ := readBody_spec hpin (by rw [hcount, hbody]) hns hlt
  have hframe := hpframe.trans huframe
  obtain ⟨v, hv, hvholds, hvframe⟩ :=
    bufAppend_holds (hholds.congr (t := u) (by rw [hframe]) (by rw [hframe])) u.acc hsafe
  exact ⟨v, decodeLoop_record (hin.moreInput_of_ne_nil hne) hcount0 hu hv, huin.of_bufferOnly hvframe, hacc ▸ hvholds,
    (decodeOnly_of_recordOnly hframe).trans (decodeOnly_of_bufferOnly hvframe)⟩

/-- The record loop raises the first failure of what it has still to read. -/
theorem decodeLoop_raises (fuel : Nat) {s : State} {stream cs : List Cell} {x : Raise} (hin : Unread s stream)
    (hholds : Holds s cs) (hsafe : cs.length + stream.length ≤ Config.maxSafeLen) (hlt : 2 * stream.length < 2 ^ 32)
    (hfails : decodedWithin fuel stream = .error x) : ∃ t, decodeLoop fuel s = .raise x t ∧ DecodeOnly s t := by
  induction fuel generalizing s stream cs with
  | zero => cases hfails
  | succ fuel ih =>
    obtain ⟨hne, k, hk, hcases⟩ := decodedWithin_error hfails
    have hmore := hin.moreInput_of_ne_nil hne
    obtain ⟨hcount, hpin, hpframe⟩ := readPrefix_spec hin
    rw [hk] at hcount hpin
    rcases hcases with ⟨hk0, hrest, rfl⟩ | ⟨hk0, hbad, rfl⟩ | ⟨hk0, body, rest, ns, hbody, hsplit, hns, hrest⟩
    · have hcount0 : (readPrefix s).count = 0 := BitVec.eq_of_toNat_eq (hcount.trans hk0)
      exact ⟨_, decodeLoop_no_dots hmore hcount0 (mt hpin.eq_nil_iff.mpr hrest), decodeOnly_of_recordOnly hpframe⟩
    · have hcount0 : (readPrefix s).count ≠ 0 := fun h => hk0 (by rw [← hcount, h]; rfl)
      obtain ⟨t, ht, hframe⟩ := readBody_raises hpin (hcount.symm ▸ hbad)
      exact ⟨t, decodeLoop_bad_body hmore hcount0 ht, decodeOnly_of_recordOnly (hpframe.trans hframe)⟩
    · have hlen : body.length + rest.length + (k + 1) ≤ stream.length := by
        have := congrArg List.length hsplit
        rw [List.length_drop, List.length_append] at this
        omega
      obtain ⟨v, hv, hvin, hvholds, hvframe⟩ := decodeLoop_past_record fuel hin hne (hk ▸ hk0) (hk ▸ hbody)
        (hk ▸ hsplit) hns hholds (by omega) (by omega)
      obtain ⟨t, ht, htframe⟩ := ih hvin hvholds
        (by rw [List.length_append, List.length_singleton]; omega) (by omega) hrest
      exact ⟨t, hv.trans ht, hvframe.trans htframe⟩

/-- Settles O32: DECODE runs the record loop, which raises the first failure. -/
theorem decodeReportsFirstFailure : Obligations.DecodeReportsFirstFailure := by
  intro s x hpos hlimit hfails
  have hmax : Config.maxSafeLen = 2 ^ 53 - 1 := rfl
  have hlen := length_inputCells s
  rw [decodedText, hlen] at hfails
  obtain ⟨t, hrun, hframe⟩ := decodeLoop_raises s.arg0.toNat (startTransform_unread (by omega))
    (startTransform_holds s) (by rw [hlen, List.length_nil]; omega) (by omega) hfails
  have harg : s.arg0 ≠ 0 := fun h => by simp [h] at hpos
  refine ⟨decodedWithin_error_code hfails, scrambleTok (raiseEntry x t), transform_raise harg hlimit hrun,
    ⟨rfl, rfl, rfl, rfl, rfl⟩, ?_, ?_, ?_, ?_⟩
  · rw [hframe]; rfl
  · rw [hframe]; exact ⟨rfl, rfl, rfl, rfl⟩
  · rw [hframe]; exact ⟨rfl, rfl, rfl⟩
  · rw [hframe]; exact ⟨rfl, rfl, rfl, rfl⟩

/-! ### A first cell that is no dot (R183) -/

theorem inputCells_cons {s : State} (h : 0 < s.arg0.toNat) :
    ∃ rest, inputCells s = inCell s 0 :: rest ∧ rest.length + 1 = s.arg0.toNat := by
  obtain ⟨n, hn⟩ := Nat.exists_eq_add_of_lt h
  rw [Nat.zero_add] at hn
  refine ⟨(List.range n).map fun i => inCell s (i + 1), ?_, by simp [hn]⟩
  rw [inputCells, hn, List.range_succ_eq_map, List.map_cons, List.map_map]
  rfl

theorem decodedText_no_dot {c : Cell} (rest : List Cell) (h : c ≠ dotCell) :
    decodedText (c :: rest) = if rest = [] then .ok [] else .error .cannotDecode := by
  simp [decodedText, decodedWithin, h]

/-- Settles O33: the reference decoder accepts the lone cell and fails on more. -/
theorem zeroDotPrefix : Obligations.ZeroDotPrefix := by
  intro s hdot
  refine ⟨fun hone => ?_, fun hmany hlimit => ?_⟩
  · obtain ⟨rest, hinput, hrest⟩ := inputCells_cons (s := s) (by omega)
    have hnil : rest = [] := List.length_eq_zero_iff.mp (by omega)
    have htext : decodedText (inputCells s) = .ok [] := by rw [hinput, decodedText_no_dot rest hdot, if_pos hnil]
    obtain ⟨t, hrun, ⟨hstatus, -, hres, hdone⟩, hpayload, -⟩ :=
      decodePayloadIsDecodedText s [] (by omega) (by omega) htext
    have hlen : t.payloadLen = 0 := BitVec.eq_of_toNat_eq (by rw [← length_payload, hpayload]; rfl)
    exact ⟨t, hrun, hstatus, hlen, hres, hdone⟩
  · obtain ⟨rest, hinput, hrest⟩ := inputCells_cons (s := s) (by omega)
    have hne : rest ≠ [] := fun h => by simp [h] at hrest; omega
    have hfails : decodedText (inputCells s) = .error .cannotDecode := by
      rw [hinput, decodedText_no_dot rest hdot, if_neg hne]
    obtain ⟨-, t, hrun, hfailed, -⟩ := decodeReportsFirstFailure s .cannotDecode (by omega) hlimit hfails
    exact ⟨t, hrun, hfailed⟩

/-! ### The length of the text (R187 (c)) -/

/-- Each character takes a dot, the cell that ends the dots, and a symbol at the least. -/
theorem length_decodedWithin {fuel : Nat} {stream text : List Cell} (h : decodedWithin fuel stream = .ok text) :
    3 * text.length ≤ stream.length := by
  induction fuel generalizing stream text with
  | zero =>
    cases h
    exact Nat.zero_le _
  | succ fuel ih =>
    rcases decodedWithin_ok h with ⟨-, rfl⟩ | ⟨-, -, -, rfl⟩ | ⟨-, k, body, rest, ns, tail, -, hk0, hbody, hsplit, -,
      htail, rfl⟩
    · exact Nat.zero_le _
    · exact Nat.zero_le _
    · have hrest := ih htail
      have hlen := congrArg List.length hsplit
      rw [List.length_drop, List.length_append] at hlen
      rw [List.length_cons]
      omega

/-- Settles O34: on success the payload is the decoded text. -/
theorem decodeShrinksToAThird : Obligations.DecodeShrinksToAThird := by
  intro s t hrun hstatus
  have hpre := transformPreconditions .decode 134217728 s (by simp)
  rcases Nat.eq_zero_or_pos s.arg0.toNat with h0 | hpos
  · obtain ⟨u, hu, ⟨hu0, -⟩, -⟩ := hpre.1 (BitVec.eq_of_toNat_eq h0)
    cases hu.symm.trans hrun
    rw [hu0] at hstatus
    cases hstatus
  rcases Nat.lt_or_ge 134217728 s.arg0.toNat with hlong | hlimit
  · obtain ⟨u, hu, ⟨hu1, -⟩, -⟩ := hpre.2 hlong
    cases hu.symm.trans hrun
    rw [hu1] at hstatus
    cases hstatus
  cases htext : decodedText (inputCells s) with
  | ok text =>
    obtain ⟨u, hu, -, hpayload, -⟩ := decodePayloadIsDecodedText s text hpos hlimit htext
    cases hu.symm.trans hrun
    rw [← length_payload, hpayload, ← length_inputCells s]
    exact length_decodedWithin htext
  | error x =>
    obtain ⟨hx, u, hu, ⟨hux, -⟩, -⟩ := decodeReportsFirstFailure s x hpos hlimit htext
    cases hu.symm.trans hrun
    rw [hux] at hstatus
    rcases hx with rfl | rfl <;> cases hstatus

/-! ### The round trip (R187 (a)) -/

theorem length_bodyOf_ne_zero {c : Cell} (h : c ≠ 0) : (bodyOf c).length ≠ 0 := by
  rw [length_bodyOf, nibblesOf_cons h, List.length_cons]
  omega

/-- A record starts with as many dots as its body has cells, and its body follows the space. -/
theorem record_append_parts (c : Cell) (rest : List Cell) :
    ((record c ++ rest).takeWhile (· == dotCell)).length = (bodyOf c).length ∧
      (record c ++ rest).drop ((bodyOf c).length + 1) = bodyOf c ++ rest := by
  have hsplit : record c ++ rest = List.replicate (bodyOf c).length dotCell ++ spaceCell :: (bodyOf c ++ rest) := by
    simp [record]
  rw [hsplit]
  constructor
  · rw [List.takeWhile_append_of_pos (by simp), List.takeWhile_cons_of_neg (by decide), List.append_nil,
      List.length_replicate]
  · rw [List.append_cons]
    exact List.drop_left' (by simp)

theorem decodedWithin_record {fuel : Nat} {c : Cell} {rest text : List Cell} (hc : c ≠ 0)
    (h : decodedWithin fuel rest = .ok text) : decodedWithin (fuel + 1) (record c ++ rest) = .ok (c :: text) := by
  obtain ⟨hdots, hdrop⟩ := record_append_parts c rest
  have hne : record c ++ rest ≠ [] := by simp [record]
  have hlen : ¬(bodyOf c ++ rest).length < (bodyOf c).length := by simp
  simp only [decodedWithin, if_neg hne, hdots, hdrop, if_neg (length_bodyOf_ne_zero hc), if_neg hlen,
    List.take_left, List.drop_left, bodyNibbles_bodyOf, h, assemble_nibblesOf]

theorem decodedWithin_encodedStream {fuel : Nat} {text : List Cell} (hzero : ∀ c ∈ text, c ≠ 0)
    (hfuel : text.length ≤ fuel) : decodedWithin fuel (encodedStream text) = .ok text := by
  induction text generalizing fuel with
  | nil => cases fuel <;> rfl
  | cons c rest ih =>
    cases fuel with
    | zero => cases hfuel
    | succ fuel =>
      rw [encodedStream, List.flatMap_cons]
      exact decodedWithin_record (hzero c List.mem_cons_self)
        (ih (fun v hv => hzero v (List.mem_cons_of_mem c hv)) (Nat.le_of_succ_le_succ hfuel))

theorem decodedText_encodedStream {text : List Cell} (hzero : ∀ c ∈ text, c ≠ 0) :
    decodedText (encodedStream text) = .ok text :=
  decodedWithin_encodedStream hzero (by rw [length_encodedStream]; omega)

/-- Settles O35: the decoder is given the Encoded Stream, and reads the text back from it. -/
theorem decodeInvertsEncode : Obligations.DecodeInvertsEncode := by
  intro s hpos hlimit hzero hshort
  obtain ⟨t, hrun, ⟨hstatus, -⟩, hpayload, -⟩ := encodePayloadIsEncodedStream s hpos hlimit
  refine ⟨t, hrun, hstatus, fun u harg hcells => ?_⟩
  have hinput : inputCells u = encodedStream (inputCells s) := by
    rw [← hpayload, inputCells, payload, harg]
    exact List.map_congr_left fun i hi => hcells i (List.mem_range.mp hi)
  have hlen : u.arg0.toNat = (encodedStream (inputCells s)).length := by rw [← length_inputCells, hinput]
  have hge := length_encodedStream (inputCells s)
  have hn := length_inputCells s
  obtain ⟨v, hv, ⟨hvstatus, -⟩, hvpayload, -⟩ := decodePayloadIsDecodedText u (inputCells s) (by omega) (by omega)
    (by rw [hinput]; exact decodedText_encodedStream hzero)
  exact ⟨v, hv, hvstatus, hvpayload⟩

end Sys2Proof.Proofs
end

section
/-! PROOFS. The laws of HASHENC (spec/45_hashed_encoder.md R218): the length and the cells of the Hashed Stream, for any
generator. -/

namespace Sys2Proof.Proofs

open Sys2Proof.Machine Sys2Proof.Reference

/-! ### The length (R218 (b)) -/

/-- A nibble has its own symbol at the least. -/
theorem le_length_hashedNibbles (gen : U32 → U32) (ns : List Nibble) (b : U32) :
    ns.length ≤ (hashedNibbles gen ns b).1.length := by
  induction ns generalizing b with
  | nil => exact Nat.le_refl 0
  | cons c rest ih =>
    have hrest := ih (padding gen ((gen (c.setWidth 32 + b)).toNat % 32) b).2
    simp only [hashedNibbles, List.length_append, List.length_cons]
    omega

/-- The number of nibbles of a text. -/
def nibbleCount (text : List Cell) : Nat := (text.map fun c => (nibblesOf c).length).sum

theorem nibbleCount_cons (c : Cell) (text : List Cell) :
    nibbleCount (c :: text) = (nibblesOf c).length + nibbleCount text := by
  rw [nibbleCount, List.map_cons, List.sum_cons]
  rfl

theorem nibbleCount_le (text : List Cell) : nibbleCount text ≤ 4 * text.length := by
  induction text with
  | nil => exact Nat.le_refl 0
  | cons c rest ih =>
    have := length_nibblesOf_le c
    rw [nibbleCount_cons, List.length_cons]
    omega

theorem length_hashedFrom (gen : U32 → U32) (text : List Cell) (b : U32) :
    nibbleCount text ≤ (hashedFrom gen text b).length ∧ (hashedFrom gen text b).length ≤ 32 * nibbleCount text := by
  induction text generalizing b with
  | nil => exact ⟨Nat.le_refl 0, Nat.le_refl 0⟩
  | cons c rest ih =>
    obtain ⟨hlow, hhigh⟩ := ih (gen (hashedNibbles gen (nibblesOf c) b).2)
    have hge := le_length_hashedNibbles gen (nibblesOf c) b
    have hle := length_hashedNibbles_le gen (nibblesOf c) b
    rw [nibbleCount_cons, hashedFrom, List.length_append]
    omega

/-! ### The cells (R218 (d)) -/

/-- A padding symbol is a byte of the alphabet (R217). -/
theorem symbolCell_padSymbol_mem (t : Nibble) : symbolCell (padSymbol t) ∈ streamCells := by
  unfold padSymbol
  split_ifs <;> exact symbolCell_alpha_mem_streamCells _

theorem mem_streamCells_of_mem_padding {gen : U32 → U32} {n : Nat} {b : U32} {v : Cell}
    (h : v ∈ (padding gen n b).1) : v ∈ streamCells := by
  induction n generalizing b with
  | zero => cases h
  | succ n ih =>
    rcases List.mem_cons.mp h with rfl | hrest
    · exact symbolCell_padSymbol_mem _
    · exact ih hrest

theorem mem_streamCells_of_mem_hashedNibbles {gen : U32 → U32} {ns : List Nibble} {b : U32} {v : Cell}
    (h : v ∈ (hashedNibbles gen ns b).1) : v ∈ streamCells := by
  induction ns generalizing b with
  | nil => cases h
  | cons c rest ih =>
    rcases List.mem_append.mp h with hpad | hsymbol
    · exact mem_streamCells_of_mem_padding hpad
    · rcases List.mem_cons.mp hsymbol with rfl | hrest
      · exact symbolCell_alpha_mem_streamCells c
      · exact ih hrest

theorem mem_streamCells_of_mem_hashedFrom {gen : U32 → U32} {text : List Cell} {b : U32} {v : Cell}
    (h : v ∈ hashedFrom gen text b) : v ∈ streamCells := by
  induction text generalizing b with
  | nil => cases h
  | cons c rest ih =>
    rcases List.mem_append.mp h with hchar | hrest
    · exact mem_streamCells_of_mem_hashedNibbles hchar
    · exact ih hrest

/-- Settles O37: the laws of the Hashed Stream, which is the payload. -/
theorem hashencLengthLaw : Obligations.HashencLengthLaw := by
  intro s hpos hlimit
  obtain ⟨t, hrun, ⟨hstatus, -⟩, hpayload, -⟩ := hashencPayloadIsHashedStream s hpos hlimit
  have hlen : t.payloadLen.toNat = (hashedStream Config.nextFn (inputCells s)).length := by
    rw [← length_payload, hpayload]
  obtain ⟨hlow, hhigh⟩ := length_hashedFrom Config.nextFn (inputCells s)
    (BitVec.ofNat 32 (inputCells s).length + Config.nextFn (BitVec.ofNat 32 (inputCells s).length))
  have hcount := nibbleCount_le (inputCells s)
  rw [length_inputCells] at hcount
  exact ⟨t, nibbleCount (inputCells s), hrun, hstatus, rfl, hlen ▸ hlow, hlen ▸ hhigh, by omega,
    fun c hc => mem_streamCells_of_mem_hashedFrom (hpayload ▸ hc)⟩

end Sys2Proof.Proofs
end

section
/-! PROOFS. What a command can do (spec/60_exceptions.md R246, R251, R252): a transform reports what the reference makes
of its input and of nothing else; every other command ends in one of a few ways, said once. -/

namespace Sys2Proof.Proofs

open Sys2Proof.Machine Sys2Proof.Reference

/-! ### What a transform reports (R165, R180, R215, R252) -/

/-- The transforms, with their length limits and what the references make of an accepted input. -/
def transforms : List (Instr × Nat × (List Cell → Except Raise (List Cell))) :=
  [(.encode, 16777216, fun text => .ok (encodedStream text)), (.decode, 134217728, decodedText),
    (.hashenc, 16777216, fun text => .ok (hashedStream Config.nextFn text))]

/-- The status and the payload a result is reported with. -/
def report : Except Raise (List Cell) → Word × List Cell
  | .ok text => (1, text)
  | .error x => (raiseCode x, [])

/-- The status and the payload of a transform, by its input. -/
def reported (limit : Nat) (result : List Cell → Except Raise (List Cell)) (input : List Cell) : Word × List Cell :=
  if input.length = 0 then (0, [])
  else if limit < input.length then report (.error .tooLarge)
  else report (result input)

/-- From `s` to `t` a transform has reported `r`, with no result value, and left the HOST's side alone. -/
structure Reports (r : Word × List Cell) (s t : State) : Prop where
  status : t.status = r.1
  payload : payload t = r.2
  res0 : t.res0 = 0
  host : SameHost s t

theorem payload_of_len_zero {t : State} (h : t.payloadLen = 0) : payload t = [] := by
  simp [payload, h]

theorem Reports.of_failed {x : Raise} {s t : State} (h : Failed t x) (hhost : SameHost s t) :
    Reports (report (.error x)) s t := by
  obtain ⟨hstatus, hlen, hres, -⟩ := h
  exact ⟨hstatus, payload_of_len_zero hlen, hres, hhost⟩

/-- What an accepted input gives. -/
theorem exec_transform_accepted {i : Instr} {limit : Nat} {result : List Cell → Except Raise (List Cell)}
    (h : (i, limit, result) ∈ transforms) {s : State} (hpos : 0 < s.arg0.toNat) (hlimit : s.arg0.toNat ≤ limit) :
    ∃ t, exec i s = .next t ∧ Reports (report (result (inputCells s))) s t := by
  simp only [transforms, List.mem_cons, Prod.mk.injEq, List.not_mem_nil, or_false] at h
  rcases h with ⟨rfl, rfl, rfl⟩ | ⟨rfl, rfl, rfl⟩ | ⟨rfl, rfl, rfl⟩
  · obtain ⟨t, hrun, ⟨hstatus, -, hres, -⟩, hpayload, -, -, hhost, -⟩ := encodePayloadIsEncodedStream s hpos hlimit
    exact ⟨t, hrun, hstatus, hpayload, hres, hhost⟩
  · cases htext : decodedText (inputCells s) with
    | ok text =>
      obtain ⟨t, hrun, ⟨hstatus, -, hres, -⟩, hpayload, -, -, hhost, -⟩ :=
        decodePayloadIsDecodedText s text hpos hlimit htext
      exact ⟨t, hrun, hstatus, hpayload, hres, hhost⟩
    | error x =>
      obtain ⟨-, t, hrun, hfailed, -, hhost, -⟩ := decodeReportsFirstFailure s x hpos hlimit htext
      exact ⟨t, hrun, Reports.of_failed hfailed hhost⟩
  · obtain ⟨t, hrun, ⟨hstatus, -, hres, -⟩, hpayload, -, -, -, hhost, -⟩ := hashencPayloadIsHashedStream s hpos hlimit
    exact ⟨t, hrun, hstatus, hpayload, hres, hhost⟩

theorem transforms_limits {i : Instr} {limit : Nat} {result : List Cell → Except Raise (List Cell)}
    (h : (i, limit, result) ∈ transforms) :
    (i, limit) ∈ [(Instr.encode, 16777216), (Instr.decode, 134217728), (Instr.hashenc, 16777216)] :=
  List.mem_map_of_mem (f := fun x => (x.1, x.2.1)) h

/-- Every transform reports what its input alone says. -/
theorem exec_transform_reports {i : Instr} {limit : Nat} {result : List Cell → Except Raise (List Cell)}
    (h : (i, limit, result) ∈ transforms) (s : State) :
    ∃ t, exec i s = .next t ∧ Reports (reported limit result (inputCells s)) s t := by
  obtain ⟨hempty, hlong⟩ := transformPreconditions i limit s (transforms_limits h)
  rw [reported, length_inputCells]
  by_cases h0 : s.arg0.toNat = 0
  · obtain ⟨t, hrun, ⟨hstatus, hlen, hres, -⟩, -, -, -, hhost, -⟩ := hempty (BitVec.eq_of_toNat_eq h0)
    rw [if_pos h0]
    exact ⟨t, hrun, hstatus, payload_of_len_zero hlen, hres, hhost⟩
  · rw [if_neg h0]
    by_cases hl : limit < s.arg0.toNat
    · obtain ⟨t, hrun, hfailed, -, -, -, hhost, -⟩ := hlong hl
      rw [if_pos hl]
      exact ⟨t, hrun, Reports.of_failed (x := .tooLarge) hfailed hhost⟩
    · rw [if_neg hl]
      exact exec_transform_accepted h (Nat.pos_of_ne_zero h0) (Nat.le_of_not_lt hl)

def IsTransform (i : Instr) : Prop := i = .encode ∨ i = .decode ∨ i = .hashenc

theorem IsTransform.mem {i : Instr} (h : IsTransform i) : ∃ limit result, (i, limit, result) ∈ transforms := by
  rcases h with rfl | rfl | rfl
  · exact ⟨_, _, List.mem_cons_self⟩
  · exact ⟨_, _, List.mem_cons_of_mem _ List.mem_cons_self⟩
  · exact ⟨_, _, List.mem_cons_of_mem _ (List.mem_cons_of_mem _ List.mem_cons_self)⟩

/-- Settles O39: the two inputs are the same list of cells, so the two reports are the same. -/
theorem transformsDependOnInputOnly : Obligations.TransformsDependOnInputOnly := by
  intro i s s' t t' hi harg hcells hrun hrun'
  obtain ⟨limit, result, hmem⟩ := IsTransform.mem hi
  have hinput : inputCells s' = inputCells s := by
    rw [inputCells, inputCells, harg]
    exact List.map_congr_left fun a ha => hcells a (List.mem_range.mp ha)
  obtain ⟨u, hu, hreports⟩ := exec_transform_reports hmem s
  obtain ⟨u', hu', hreports'⟩ := exec_transform_reports hmem s'
  cases hu.symm.trans hrun
  cases hu'.symm.trans hrun'
  rw [hinput] at hreports'
  have hpayload : payload t' = payload t := hreports'.payload.trans hreports.payload.symm
  have hlen : t'.payloadLen = t.payloadLen :=
    BitVec.eq_of_toNat_eq (by rw [← length_payload, hpayload, length_payload])
  exact ⟨hreports'.status.trans hreports.status.symm, hlen, hreports'.res0.trans hreports.res0.symm, hpayload⟩

/-! ### How the other commands end (R130 to R134, R151, R152, R200, R232) -/

/-- How a command can end: RELEASE returns; a transform is left to its own laws; any other command fails, having changed
nothing, or succeeds with a result value set, a token written, an empty buffer, or cells stored in the room it
reserved. -/
inductive CommandEnd (s : State) : Instr → State → Prop where
  | release (u : BitVec 60) : CommandEnd s (.release u) (releaseReturn s)
  | transform {i : Instr} {t : State} (hi : IsTransform i) (hrun : exec i s = .next t) : CommandEnd s i t
  | badCommand {i : Instr} (hi : i ∈ [Instr.next, .append, .appendspan, .lookup, .token]) :
    CommandEnd s i (raiseEntry .badCommand s)
  | lengthOverflow {i : Instr} (hi : i ∈ [Instr.reserve, .append, .appendspan]) :
    CommandEnd s i (raiseEntry .lengthOverflow s)
  | value {i : Instr} (hi : i ∈ [Instr.next, .length, .lookup]) (v : Word) :
    CommandEnd s i (finish Config.stSuccess (setRes0 v s))
  | token {u : State} (v : Word) (hu : TokOnly s u) : CommandEnd s .token (finish Config.stSuccess (setRes0 v u))
  | bufnew : CommandEnd s .bufnew (finish Config.stSuccess (setRes0 0 (bufNew s)))
  | stored {i : Instr} {n : Nat} {vs : List Cell} {u : State} (hi : i ∈ [Instr.reserve, .append, .appendspan])
    (hu : bufReserve n s = .go u) (hvs : vs.length ≤ n) : CommandEnd s i (stored vs u)

/-- A reserve that does not go on changes nothing. -/
theorem bufReserve_go_or_raise (n : Nat) (s : State) :
    (∃ u, bufReserve n s = .go u) ∨ bufReserve n s = .raise .lengthOverflow s := by
  rcases bufReserve_cases n s with ⟨_, he⟩ | ⟨_, _, he⟩ | ⟨_, _, he⟩
  · exact .inr he
  · exact .inl ⟨_, he⟩
  · exact .inl ⟨_, he⟩

theorem tokOnly_of_token_zero (t : Nibble) (s : State) : TokOnly s (token t { s with k := 0 }) := by
  obtain ⟨-, -, hframe⟩ := token_of_k_zero t (s := { s with k := 0 }) rfl
  exact TokOnly.trans_tok (t := { s with k := 0 }) rfl hframe

/-- Every command ends, in one of these ways. -/
theorem exec_ends (i : Instr) (s : State) : ∃ t, exec i s = .next t ∧ CommandEnd s i t := by
  cases i with
  | encode => exact ⟨_, rfl, .transform (.inl rfl) rfl⟩
  | decode => exact ⟨_, rfl, .transform (.inr (.inl rfl)) rfl⟩
  | hashenc => exact ⟨_, rfl, .transform (.inr (.inr rfl)) rfl⟩
  | release u => exact ⟨_, rfl, .release u⟩
  | bufnew => exact ⟨_, rfl, .bufnew⟩
  | length => exact ⟨_, rfl, .value (by simp) s.len⟩
  | next =>
    show ∃ t, execNext s = .next t ∧ _
    cases hv : seedOperand s.arg0 with
    | none => exact ⟨_, by rw [execNext, hv]; rfl, .badCommand (by simp)⟩
    | some v => exact ⟨_, by rw [execNext, hv]; rfl, .value (by simp) _⟩
  | lookup =>
    show ∃ t, execLookup s = .next t ∧ _
    cases hv : cellOperand s.arg0 with
    | none => exact ⟨_, by rw [execLookup, hv]; rfl, .badCommand (by simp)⟩
    | some v => exact ⟨_, by rw [execLookup, hv]; rfl, .value (by simp) _⟩
  | token =>
    show ∃ t, execToken s = .next t ∧ _
    cases hv : nibbleOperand s.arg0 with
    | none => exact ⟨_, by rw [execToken, hv]; rfl, .badCommand (by simp)⟩
    | some v => exact ⟨_, by rw [execToken, hv]; rfl, .token _ (tokOnly_of_token_zero v s)⟩
  | reserve =>
    rcases bufReserve_go_or_raise s.arg0.toNat s with ⟨u, hu⟩ | hraise
    · exact ⟨_, exec_reserve_go hu, .stored (by simp) hu (Nat.zero_le _)⟩
    · show ∃ t, execReserve s = .next t ∧ _
      exact ⟨_, by rw [execReserve, reserveOperand, hraise]; rfl, .lengthOverflow (by simp)⟩
  | append =>
    cases hv : cellOperand s.arg0 with
    | none =>
      show ∃ t, execAppend s = .next t ∧ _
      exact ⟨_, by rw [execAppend, hv]; rfl, .badCommand (by simp)⟩
    | some v =>
      rcases bufReserve_go_or_raise 1 s with ⟨u, hu⟩ | hraise
      · exact ⟨_, exec_append_go hv hu, .stored (by simp) hu (Nat.le_refl 1)⟩
      · show ∃ t, execAppend s = .next t ∧ _
        exact ⟨_, by rw [execAppend, hv, withOperand_some, bufAppend, hraise]; rfl, .lengthOverflow (by simp)⟩
  | appendspan =>
    cases hn : countOperand s.arg0 with
    | none =>
      show ∃ t, execAppendspan s = .next t ∧ _
      exact ⟨_, by rw [execAppendspan, hn]; rfl, .badCommand (by simp)⟩
    | some n =>
      rcases bufReserve_go_or_raise n s with ⟨u, hu⟩ | hraise
      · exact ⟨_, exec_appendspan_go hn hu, .stored (by simp) hu (by simp [tokCells])⟩
      · show ∃ t, execAppendspan s = .next t ∧ _
        exact ⟨_, by rw [execAppendspan, hn, withOperand_some, bufAppendSpan, hraise]; rfl, .lengthOverflow (by simp)⟩

theorem commandEnd_of_exec {i : Instr} {s t : State} (h : exec i s = .next t) : CommandEnd s i t := by
  obtain ⟨u, hu, hend⟩ := exec_ends i s
  cases hu.symm.trans h
  exact hend

/-! ### What follows for every command -/

/-- Settles O14: a command that stores cells stores them from `OUT[LEN]` on, and the rest leave `OUT` alone. -/
theorem storedCellsSurvive : Obligations.StoredCellsSurvive := by
  intro i s t hencode hdecode hhashenc hbufnew hrun
  cases commandEnd_of_exec hrun with
  | release u => exact ⟨Nat.le_refl _, fun a _ => rfl⟩
  | transform hi =>
    rcases hi with rfl | rfl | rfl
    · exact absurd rfl hencode
    · exact absurd rfl hdecode
    · exact absurd rfl hhashenc
  | badCommand => exact ⟨Nat.le_refl _, fun a _ => rfl⟩
  | lengthOverflow => exact ⟨Nat.le_refl _, fun a _ => rfl⟩
  | value => exact ⟨Nat.le_refl _, fun a _ => rfl⟩
  | token v hu =>
    rw [hu]
    exact ⟨Nat.le_refl _, fun a _ => rfl⟩
  | bufnew => exact absurd rfl hbufnew
  | stored hi hu hvs =>
    obtain ⟨-, hlen, -, hout, -⟩ := stored_spec hu hvs
    exact ⟨by rw [hlen]; exact Nat.le_add_right _ _, fun a ha => by rw [hout, if_pos ha]⟩

/-- Settles O44: by the ways a command can end; a transform leaves the HOST's side alone with its report. -/
theorem commandsNeverWriteTheHostsSide : Obligations.CommandsNeverWriteTheHostsSide := by
  intro i s t hrun
  cases commandEnd_of_exec hrun with
  | release u => exact ⟨rfl, rfl, rfl, rfl⟩
  | transform hi =>
    obtain ⟨limit, result, hmem⟩ := hi.mem
    obtain ⟨u, hu, hreports⟩ := exec_transform_reports hmem s
    cases hu.symm.trans hrun
    exact hreports.host
  | badCommand => exact ⟨rfl, rfl, rfl, rfl⟩
  | lengthOverflow => exact ⟨rfl, rfl, rfl, rfl⟩
  | value => exact ⟨rfl, rfl, rfl, rfl⟩
  | token v hu =>
    rw [hu]
    exact ⟨rfl, rfl, rfl, rfl⟩
  | bufnew => exact ⟨rfl, rfl, rfl, rfl⟩
  | stored hi hu hvs =>
    obtain ⟨-, -, -, -, hhost, -⟩ := stored_spec hu hvs
    exact hhost

/-! ### The statuses (R246) -/

theorem reported_status_ok (limit : Nat) (f : List Cell → List Cell) (input : List Cell) :
    (reported limit (fun text => .ok (f text)) input).1 ∈ [(1 : Word), 0, 0xFFFFFFFFFFFFFFFF] := by
  unfold reported
  split_ifs
  · decide
  · decide
  · exact List.mem_cons_self

theorem reported_status_decode (limit : Nat) (input : List Cell) :
    (reported limit decodedText input).1 ∈ [(1 : Word), 0, 0xFFFFFFFFFFFFFFFF, 0xFFFFFFFFFFFFFFFE] := by
  unfold reported
  split_ifs
  · decide
  · decide
  · cases htext : decodedText input with
    | ok text => exact List.mem_cons_self
    | error x => rcases decodedWithin_error_code htext with rfl | rfl <;> decide

/-- Settles O43: the ways of ending, each with its status; of a transform's statuses, those of what it reports. -/
theorem statusesOfEachCommand : Obligations.StatusesOfEachCommand := by
  intro i s t hrun
  cases commandEnd_of_exec hrun with
  | release u => rfl
  | transform hi =>
    obtain ⟨limit, result, hmem⟩ := hi.mem
    obtain ⟨u, hu, hreports⟩ := exec_transform_reports hmem s
    cases hu.symm.trans hrun
    have hstatus := hreports.status
    simp only [transforms, List.mem_cons, Prod.mk.injEq, List.not_mem_nil, or_false] at hmem
    rcases hmem with ⟨rfl, rfl, rfl⟩ | ⟨rfl, rfl, rfl⟩ | ⟨rfl, rfl, rfl⟩
    · exact hstatus ▸ reported_status_ok _ encodedStream _
    · exact hstatus ▸ reported_status_decode _ _
    · exact hstatus ▸ reported_status_ok _ (hashedStream Config.nextFn) _
  | badCommand hi =>
    simp only [List.mem_cons, List.not_mem_nil, or_false] at hi
    rcases hi with rfl | rfl | rfl | rfl | rfl <;> simp [raiseCode, Config.stBadCommand]
  | lengthOverflow hi =>
    simp only [List.mem_cons, List.not_mem_nil, or_false] at hi
    rcases hi with rfl | rfl | rfl <;> simp [raiseCode, Config.stLengthOverflow]
  | value hi =>
    simp only [List.mem_cons, List.not_mem_nil, or_false] at hi
    rcases hi with rfl | rfl | rfl <;> simp [Config.stSuccess]
  | token => simp [Config.stSuccess]
  | bufnew => simp [Config.stSuccess]
  | stored hi =>
    simp only [List.mem_cons, List.not_mem_nil, or_false] at hi
    rcases hi with rfl | rfl | rfl <;> simp [stored, Config.stSuccess]

end Sys2Proof.Proofs
end

section
/-! PROOFS. What the HOST can do (spec/10_state.md R30; spec/20_memory.md R60, R64; spec/46_control_commands.md R234,
R236; spec/70_reset_and_hazards.md R280, R281): register reads and writes, the two cell spaces, and reset. -/

namespace Sys2Proof.Proofs

open Sys2Proof.Machine Sys2Proof.Reference

/-- A HOST action that settles is the step. -/
theorem step_of_hostAction {s t : State} {e : HostEvent} {rest : List HostEvent} (hin : s.inputs = e :: rest)
    (h : hostAction e { s with inputs := rest } = .settle t) : step s = .next t :=
  step_of_settle ((nextMove_cons hin).trans h)

/-! ### Reads change nothing of the machine (R68) -/

/-- Only the model's read port and its count of free values differ. -/
def ReadOnly (s t : State) : Prop := t = { s with hostData := t.hostData, fresh := t.fresh }

theorem hostReadReg_readOnly (n : Nat) (s : State) : ReadOnly s (hostReadReg n s) := by
  unfold hostReadReg
  split <;> rfl

theorem hostReadIn_readOnly (i : Nat) (s : State) : ReadOnly s (hostReadIn i s) := by
  unfold hostReadIn
  split_ifs <;> rfl

theorem hostReadOut_readOnly (i : Nat) (s : State) : ReadOnly s (hostReadOut i s) := by
  unfold hostReadOut
  split_ifs <;> rfl

theorem hostReadReg_hostData {n : Nat} {s : State} {v : Word} (h : readRegister s n = some v) :
    (hostReadReg n s).hostData = v := by
  rw [hostReadReg, h]
  rfl

/-! ### The register map, read (R30, R234) -/

theorem readRegister_quiet {s : State} (hs : s.state ≠ .busy) (n : Nat) : readRegister s n = quietRegister s n :=
  if_neg hs

/-- Above the eleven single registers the map goes by ranges. -/
theorem quietRegister_ranges (s : State) {n : Nat} (h : 11 ≤ n) :
    quietRegister s n =
      if n < 16 then some 0
      else if n < 32 then some ((alpha (BitVec.ofNat 4 (n - 16))).setWidth 64)
      else if n < 48 then some ((tokAt s (n - 32)).setWidth 64)
      else some 0 := by
  unfold quietRegister
  iterate 11 rw [if_neg (by omega)]

theorem quietRegister_reserved (s : State) {n : Nat} (h : 11 ≤ n ∧ n ≤ 15 ∨ 48 ≤ n) : quietRegister s n = some 0 := by
  rw [quietRegister_ranges s (by omega)]
  rcases h with ⟨_, h15⟩ | h48
  · rw [if_pos (by omega)]
  · rw [if_neg (by omega), if_neg (by omega), if_neg (by omega)]

theorem alpha_ofNat (j : Fin 16) : alpha (BitVec.ofNat 4 j.val) = alphabet[j] := by
  revert j
  decide

theorem quietRegister_alpha (s : State) (j : Fin 16) :
    quietRegister s (16 + j.val) = some ((alphabet[j]).setWidth 64) := by
  rw [quietRegister_ranges s (by omega), if_neg (by omega), if_pos (by omega), Nat.add_sub_cancel_left, alpha_ofNat]

theorem tokAt_eq (s : State) (j : Fin 16) : tokAt s j.val = s.tok[j] := by
  simp [tokAt]

theorem quietRegister_tok (s : State) (j : Fin 16) : quietRegister s (32 + j.val) = some ((s.tok[j]).setWidth 64) := by
  rw [quietRegister_ranges s (by omega), if_neg (by omega), if_neg (by omega), if_pos (by omega),
    Nat.add_sub_cancel_left, tokAt_eq]

/-- Settles O45: each number in its range of the map, and the read changes the read port only. -/
theorem registerMapReads : Obligations.RegisterMapReads := by
  intro s n rest hin hs
  have hread : ∀ {v}, quietRegister { s with inputs := rest } n = some v →
      (hostReadReg n { s with inputs := rest }).hostData = v := fun h =>
    hostReadReg_hostData ((readRegister_quiet (s := { s with inputs := rest }) hs n).trans h)
  refine ⟨_, step_of_hostAction hin rfl, hostReadReg_readOnly n { s with inputs := rest }, ?_, ?_, ?_, ?_, ?_, ?_, ?_,
    ?_, ?_, ?_, ?_, ?_, ?_, ?_, ?_, ?_⟩
  · rintro rfl; exact hread rfl
  · rintro rfl; exact hread rfl
  · rintro rfl hidle; exact hread (congrArg (fun x => some (stateCode x)) hidle)
  · rintro rfl hdone; exact hread (congrArg (fun x => some (stateCode x)) hdone)
  · rintro rfl hdone; exact hread (if_pos hdone)
  · rintro rfl hdone; exact hread (if_pos hdone)
  · rintro rfl hdone; exact hread (if_pos hdone)
  · rintro rfl; exact hread rfl
  · rintro rfl; exact hread rfl
  · rintro rfl; exact hread rfl
  · rintro rfl; exact hread rfl
  · rintro rfl; exact hread rfl
  · intro hlow hhigh; exact hread (quietRegister_reserved _ (.inl ⟨hlow, hhigh⟩))
  · rintro j rfl; exact hread (quietRegister_alpha _ j)
  · rintro j rfl; exact hread (quietRegister_tok _ j)
  · intro h; exact hread (quietRegister_reserved _ (.inr h))

/-! ### The register map, written (R30, R234) -/

theorem step_writeReg {s : State} {n : Nat} {v : Word} {rest : List HostEvent} (hin : s.inputs = .writeReg n v :: rest)
    (h0 : n ≠ 0) : step s = .next (writeRegister n v { s with inputs := rest }) :=
  step_of_hostAction hin (by rw [hostAction, if_neg h0])

theorem writeRegister_arg0 (v : Word) {s : State} (hs : s.state ≠ .busy) :
    writeRegister 1 v s = { s with arg0 := v } := by
  rw [writeRegister, if_pos rfl, if_neg hs]

theorem setIfInBounds_eq_set (tok : Vector Symbol 16) (j : Fin 16) (v : Symbol) :
    tok.setIfInBounds j.val v = tok.set j v := by
  refine Vector.ext fun i hi => ?_
  rw [Vector.getElem_setIfInBounds, Vector.getElem_set]

theorem writeRegister_tok (j : Fin 16) (v : Word) {s : State} (hs : s.state = .idle) :
    writeRegister (32 + j.val) v s = { s with tok := s.tok.set j (v.setWidth 8) } := by
  rw [writeRegister, if_neg (by omega), if_pos (by omega), if_pos hs, Nat.add_sub_cancel_left, tokSet,
    setIfInBounds_eq_set]

/-- The writes that are ignored: to a number that is no writable register, in BUSY, and of `TOK` outside IDLE. -/
theorem writeRegister_ignored {n : Nat} (v : Word) {s : State}
    (h : n ≠ 1 ∧ (n < 32 ∨ 48 ≤ n) ∨ s.state = .busy ∨ 32 ≤ n ∧ s.state = .done) : writeRegister n v s = s := by
  unfold writeRegister
  split_ifs with h1 hbusy hrange hidle
  · rfl
  · rcases h with ⟨hne, _⟩ | hb | ⟨h32, _⟩
    · exact absurd h1 hne
    · exact absurd hb hbusy
    · omega
  · rcases h with ⟨_, hout⟩ | hb | ⟨_, hd⟩
    · omega
    · rw [hidle] at hb; cases hb
    · rw [hidle] at hd; cases hd
  · rfl
  · rfl

/-- Settles O46: the two kinds of write that are taken, and the three ways of being ignored. -/
theorem registerMapWrites : Obligations.RegisterMapWrites := by
  intro s n v rest hin h0
  rw [step_writeReg hin h0]
  refine ⟨?_, ?_, fun h1 hout => ?_, fun hbusy => ?_, fun h32 hdone => ?_⟩
  · rintro rfl hs
    exact congrArg _ (writeRegister_arg0 v hs)
  · rintro j rfl hs
    exact congrArg _ (writeRegister_tok j v hs)
  · exact congrArg _ (writeRegister_ignored v (.inl ⟨h1, hout⟩))
  · exact congrArg _ (writeRegister_ignored v (.inr (.inl hbusy)))
  · exact congrArg _ (writeRegister_ignored v (.inr (.inr ⟨h32, hdone⟩)))

/-! ### Register accesses in BUSY (R236) -/

theorem step_writeReg_busy {s : State} {n : Nat} {v : Word} {rest : List HostEvent}
    (hin : s.inputs = .writeReg n v :: rest) (hs : s.state = .busy) : step s = .next { s with inputs := rest } := by
  by_cases h0 : n = 0
  · subst h0
    exact step_cmd_ignored hin (.inl hs)
  · exact (step_writeReg hin h0).trans (congrArg _ (writeRegister_ignored v (.inr (.inl hs))))

/-- Settles O47: a write is ignored in BUSY, and a read changes the read port only. -/
theorem busyAdmitsOnlyStateReads : Obligations.BusyAdmitsOnlyStateReads := by
  intro s n v rest hs
  refine ⟨fun hin => step_writeReg_busy hin hs, fun hin => ?_⟩
  refine ⟨_, step_of_hostAction hin rfl, hostReadReg_readOnly n { s with inputs := rest }, ?_⟩
  rintro rfl
  refine hostReadReg_hostData (s := { s with inputs := rest }) ?_
  rw [readRegister, if_pos hs, if_pos rfl]
  exact congrArg (fun x => some (stateCode x)) hs

/-! ### The cell spaces (R60, R64) -/

theorem outCell_of_payload {s : State} {i : Nat} {c : Cell} (h : (payload s)[i]? = some c) :
    i < s.payloadLen.toNat ∧ outCell s i = c := by
  rw [payload, List.getElem?_map, Option.map_eq_some_iff] at h
  obtain ⟨j, hj, hcell⟩ := h
  obtain ⟨hlt, rfl⟩ := List.getElem?_eq_some_iff.mp hj
  rw [List.length_range] at hlt
  exact ⟨hlt, by rwa [List.getElem_range] at hcell⟩

/-- Settles O48: below `PAYLOAD_LEN` the payload's cell is the cell of `OUT`. -/
theorem payloadWindow : Obligations.PayloadWindow := by
  intro s i rest hin
  refine ⟨_, step_of_hostAction hin rfl, hostReadOut_readOnly i { s with inputs := rest }, fun c hs hc => ?_⟩
  obtain ⟨hi, rfl⟩ := outCell_of_payload hc
  rw [hostReadOut, if_pos ⟨hs, hi⟩]
  rfl

/-- Settles O59: outside BUSY the read delivers the cell. -/
theorem inputReadsReturnTheCell : Obligations.InputReadsReturnTheCell := by
  intro s i rest hin
  refine ⟨_, step_of_hostAction hin rfl, hostReadIn_readOnly i { s with inputs := rest }, fun hs => ?_⟩
  rw [hostReadIn, if_neg hs]
  rfl

theorem hostAction_writeIn {i : Nat} {s : State} (h : ¬(TransformHeld s ∧ i < s.arg0.toNat)) (v : Cell) :
    hostAction (.writeIn i v) s = .settle (hostWriteIn i v s) := by
  rw [hostAction, if_neg (mt (inputInUse_iff i s).mp h)]

/-- Settles O58: the cell is not in use, so the write is taken. -/
theorem inputWritesStoreOneCell : Obligations.InputWritesStoreOneCell := by
  intro s i v rest hin hfree
  exact ⟨_, step_of_hostAction hin (hostAction_writeIn (s := { s with inputs := rest }) hfree v), rfl,
    fun a => inCell_hostWriteIn i a v { s with inputs := rest }⟩

/-! ### Reset (R41, R280, R281) -/

/-- Settles O49: the reset event is `resetEngine`, from any state. -/
theorem resetEventValues : Obligations.ResetEventValues := fun s rest hin =>
  ⟨resetEngine { s with inputs := rest }, step_of_hostAction hin rfl, rfl, rfl, rfl, rfl, rfl, rfl, rfl, rfl, rfl,
    fun _ => rfl, rfl, rfl⟩

/-- Settles O50: field by field. -/
theorem resetStateValues : Obligations.ResetStateValues := ⟨rfl, rfl, rfl, rfl, rfl, rfl, rfl, rfl⟩

end Sys2Proof.Proofs
end

section
/-! PROOFS. The invariant of the machine (spec/10_state.md R28; spec/40_buffer.md R135; spec/46_control_commands.md
R235): the buffer part through every command's body, the result and sequencer parts at a command's end, and all of it
through every step. -/

namespace Sys2Proof.Proofs

open Sys2Proof.Machine Sys2Proof.Reference

/-! ### The buffer part: the buffer functions (R131 to R135) -/

/-- Wherever a body has come to, running on or stopped, `P` holds there. -/
def EndsIn (P : State → Prop) (f : Flow) : Prop :=
  match f with
  | .go s => P s
  | .raise _ s => P s

theorem EndsIn.bind {P : State → Prop} {f : Flow} {g : State → Flow} (h : EndsIn P f)
    (hg : ∀ s, P s → EndsIn P (g s)) : EndsIn P (f.bind g) := by
  cases f with
  | go s => exact hg s h
  | raise x s => exact h

/-- `BufferInv` reads only the buffer. -/
theorem bufferInv_congr {s t : State} (h : BufferInv s) (hout : t.out = s.out) (hlen : t.len = s.len)
    (hcap : t.cap = s.cap) (hgrow : t.grow = s.grow) : BufferInv t where
  out_wf := by rw [hout]; exact h.out_wf
  out_cells := by rw [hout, hlen]; exact h.out_cells
  len_le_cap := by rw [hlen, hcap]; exact h.len_le_cap
  len_le_safe := by rw [hlen]; exact h.len_le_safe
  cap_pos := by rw [hcap]; exact h.cap_pos
  cap_bound := by rw [hcap]; exact h.cap_bound
  grow_cap := by rw [hcap, hgrow]; exact h.grow_cap

theorem bufReserve_endsIn (n : Nat) {s : State} (h : BufferInv s) : EndsIn BufferInv (bufReserve n s) := by
  rcases bufReserve_go_or_raise n s with ⟨u, hu⟩ | hraise
  · rw [hu]
    exact (bufReserve_keeps h hu).1
  · rw [hraise]
    exact h

theorem bufAppend_endsIn (v : Cell) {s : State} (h : BufferInv s) : EndsIn BufferInv (bufAppend v s) := by
  rcases bufReserve_go_or_raise 1 s with ⟨u, hu⟩ | hraise
  · have hgo : bufAppend v s = .go (storeCell v u) := by rw [bufAppend, hu, Flow.bind_go]
    rw [hgo]
    exact bufAppend_keeps h hgo
  · rw [bufAppend, hraise]
    exact h

theorem bufAppendSpan_endsIn (n : Nat) {s : State} (h : BufferInv s) : EndsIn BufferInv (bufAppendSpan n s) := by
  rcases bufReserve_go_or_raise n s with ⟨u, hu⟩ | hraise
  · have hgo : bufAppendSpan n s = .go (storeCells (tokCells u n) u) := by rw [bufAppendSpan, hu, Flow.bind_go]
    rw [hgo]
    exact bufAppendSpan_keeps h hgo
  · rw [bufAppendSpan, hraise]
    exact h

theorem bufAppendTimes_endsIn (n : Nat) (v : Cell) {s : State} (h : BufferInv s) :
    EndsIn BufferInv (bufAppendTimes n v s) := by
  induction n generalizing s with
  | zero => exact h
  | succ n ih => exact (bufAppend_endsIn v h).bind fun _ => ih

/-! ### The buffer part: ENCODE (R166) -/

theorem emitRecord_endsIn {s : State} (h : BufferInv s) : EndsIn BufferInv (emitRecord s) :=
  (bufReserve_endsIn _ h).bind fun _ h =>
    (bufAppendTimes_endsIn _ dotCell h).bind fun _ h =>
      (bufAppend_endsIn spaceCell h).bind fun _ h => bufAppendSpan_endsIn _ h

theorem encodeChar_endsIn {s : State} (h : BufferInv s) : EndsIn BufferInv (encodeChar s) := by
  obtain ⟨-, -, hframe⟩ := encodeNibbles_bodyOf (s := { loadChar s with k := 0 }) rfl
  refine emitRecord_endsIn (bufferInv_congr h ?_ ?_ ?_ ?_)
  all_goals rw [hframe]; rfl

theorem encodeLoop_endsIn (fuel : Nat) {s : State} (h : BufferInv s) : EndsIn BufferInv (encodeLoop fuel s) := by
  induction fuel generalizing s with
  | zero => exact h
  | succ fuel ih =>
    rw [encodeLoop]
    split_ifs
    · exact (encodeChar_endsIn h).bind fun _ => ih
    · exact h

/-! ### The buffer part: DECODE (R181 to R185) -/

theorem scanDots_bufferInv (fuel : Nat) {s : State} (h : BufferInv s) : BufferInv (scanDots fuel s) := by
  induction fuel generalizing s with
  | zero => exact h
  | succ fuel ih =>
    simp only [scanDots]
    split_ifs
    · exact ih (bufferInv_congr h rfl rfl rfl rfl)
    · exact bufferInv_congr h rfl rfl rfl rfl
    · exact h

theorem readPrefix_bufferInv {s : State} (h : BufferInv s) : BufferInv (readPrefix s) :=
  scanDots_bufferInv _ (bufferInv_congr h rfl rfl rfl rfl)

/-- A body symbol leaves the buffer alone, whatever it is. -/
theorem HalvesOnly.bufferInv {s t : State} (hframe : HalvesOnly s t) (h : BufferInv s) : BufferInv t := by
  rw [hframe]
  exact bufferInv_congr h rfl rfl rfl rfl

theorem bodyStep_endsIn {s : State} (h : BufferInv s) : EndsIn BufferInv (bodyStep s) := by
  have hread : BufferInv (readSymbol s) := bufferInv_congr h rfl rfl rfl rfl
  simp only [bodyStep]
  split_ifs
  · exact h
  · exact hread
  · exact (bodyHalf_frame _).bufferInv hread
  · exact (bodyDirect_frame _).bufferInv hread

theorem bodyLoop_endsIn (fuel : Nat) {s : State} (h : BufferInv s) : EndsIn BufferInv (bodyLoop fuel s) := by
  induction fuel generalizing s with
  | zero => exact h
  | succ fuel ih =>
    rw [bodyLoop]
    split_ifs
    · exact (bodyStep_endsIn h).bind fun _ => ih
    · exact h

theorem readBody_endsIn {s : State} (h : BufferInv s) : EndsIn BufferInv (readBody s) :=
  bodyLoop_endsIn _ (bufferInv_congr h rfl rfl rfl rfl)

theorem decodeLoop_endsIn (fuel : Nat) {s : State} (h : BufferInv s) : EndsIn BufferInv (decodeLoop fuel s) := by
  induction fuel generalizing s with
  | zero => exact h
  | succ fuel ih =>
    simp only [decodeLoop]
    split_ifs
    · exact readPrefix_bufferInv h
    · exact readPrefix_bufferInv h
    · exact (readBody_endsIn (readPrefix_bufferInv h)).bind fun s h => (bufAppend_endsIn s.acc h).bind fun _ => ih
    · exact h

/-! ### The buffer part: HASHENC (R216) -/

theorem padLoop_endsIn (gen : U32 → U32) (n : Nat) {s : State} (h : BufferInv s) :
    EndsIn BufferInv (padLoop gen n s) := by
  induction n generalizing s with
  | zero => exact h
  | succ n ih =>
    rw [padLoop]
    refine EndsIn.bind (bufAppend_endsIn _ ?_) fun _ => ih
    exact bufferInv_congr h rfl rfl rfl rfl

theorem hashNibble_endsIn (gen : U32 → U32) {s : State} (h : BufferInv s) : EndsIn BufferInv (hashNibble gen s) :=
  (bufReserve_endsIn _ (bufferInv_congr (t := choosePad gen (loadNibble s)) h rfl rfl rfl rfl)).bind fun _ h =>
    (padLoop_endsIn gen _ h).bind fun _ h => bufAppend_endsIn _ h

theorem hashNibbles_endsIn (gen : U32 → U32) (fuel : Nat) {s : State} (h : BufferInv s) :
    EndsIn BufferInv (hashNibbles gen fuel s) := by
  induction fuel generalizing s with
  | zero => exact h
  | succ fuel ih =>
    rw [hashNibbles]
    split_ifs
    · exact h
    · exact (hashNibble_endsIn gen h).bind fun _ h => ih (bufferInv_congr h rfl rfl rfl rfl)

theorem hashLoop_endsIn (gen : U32 → U32) (fuel : Nat) {s : State} (h : BufferInv s) :
    EndsIn BufferInv (hashLoop gen fuel s) := by
  induction fuel generalizing s with
  | zero => exact h
  | succ fuel ih =>
    rw [hashLoop]
    split_ifs
    · have hload : BufferInv (loadChar s) := bufferInv_congr h rfl rfl rfl rfl
      have hchar : EndsIn BufferInv (hashChar gen s) :=
        (hashNibbles_endsIn gen 4 hload).bind fun u hu =>
          bufferInv_congr (t := advanceBnum gen u) hu rfl rfl rfl rfl
      exact hchar.bind fun _ => ih
    · exact h

/-! ### The end of a command (R235, R250, R251) -/

/-- What holds at the end of every command but RELEASE. -/
structure Ended (t : State) : Prop where
  buffer : BufferInv t
  result : ResultInv t
  done : t.state = .done
  free : t.held = none

/-- `ResultInv` reads only the result registers and `LEN`. -/
theorem resultInv_congr {s t : State} (h : ResultInv s) (hstatus : t.status = s.status)
    (hpayload : t.payloadLen = s.payloadLen) (hlen : t.len = s.len) (hres : t.res0 = s.res0) : ResultInv t where
  status_legal := by rw [hstatus]; exact h.status_legal
  payload_len := by rw [hstatus, hpayload, hlen]; exact h.payload_len
  res0_zero := by rw [hstatus, hres]; exact h.res0_zero
  empty_len := by rw [hstatus, hlen]; exact h.empty_len

theorem ended_success {s : State} (h : BufferInv s) : Ended (finish Config.stSuccess s) where
  buffer := bufferInv_congr h rfl rfl rfl rfl
  result := by
    have hempty : Config.stSuccess ≠ Config.stEmpty := by decide
    exact ⟨.inl rfl, rfl, fun hne => absurd rfl hne, fun heq => absurd heq hempty⟩
  done := rfl
  free := rfl

theorem ended_raise (x : Raise) {s : State} (h : BufferInv s) : Ended (raiseEntry x s) where
  buffer := bufferInv_congr h rfl rfl rfl rfl
  result := by
    have hsuccess : raiseCode x ≠ Config.stSuccess := by cases x <;> decide
    have hempty : raiseCode x ≠ Config.stEmpty := by cases x <;> decide
    exact ⟨.inr (.inr ⟨x, rfl⟩), (if_neg hsuccess).symm, fun _ => rfl, fun heq => absurd heq hempty⟩
  done := rfl
  free := rfl

theorem ended_empty {s : State} (h : BufferInv s) (hlen : s.len = 0) (hres : s.res0 = 0) :
    Ended (finish Config.stEmpty s) where
  buffer := bufferInv_congr h rfl rfl rfl rfl
  result := ⟨.inr (.inl rfl), rfl, fun _ => hres, fun _ => hlen⟩
  done := rfl
  free := rfl

theorem Ended.scrambleTok {t : State} (h : Ended t) : Ended (scrambleTok t) :=
  ⟨bufferInv_congr h.buffer rfl rfl rfl rfl, resultInv_congr h.result rfl rfl rfl rfl, h.done, h.free⟩

theorem startTransform_bufferInv {s : State} (h : BufferInv s) : BufferInv (startTransform s) :=
  bufNew_keeps (bufferInv_congr h rfl rfl rfl rfl)

/-- A transform ends well if its body keeps the buffer's invariant. -/
theorem transform_ended {limit : Nat} {body : State → Flow} {s t : State}
    (hbody : ∀ u, BufferInv u → EndsIn BufferInv (body u)) (h : BufferInv s)
    (hrun : transform limit body s = .next t) : Ended t := by
  have hstart := startTransform_bufferInv h
  cases hrun
  apply Ended.scrambleTok
  rcases transformResult_cases limit body s with ⟨_, he⟩ | ⟨_, _, he⟩ | ⟨_, _, he⟩
  · rw [he]
    exact ended_empty hstart rfl rfl
  · rw [he]
    exact ended_raise .tooLarge hstart
  · have hend := hbody _ hstart
    rw [he]
    cases hflow : body (startTransform s) with
    | go u =>
      rw [hflow] at hend
      exact ended_success hend
    | raise x u =>
      rw [hflow] at hend
      exact ended_raise x hend

theorem exec_transform_ended {i : Instr} {s t : State} (hi : IsTransform i) (h : BufferInv s)
    (hrun : exec i s = .next t) : Ended t := by
  rcases hi with rfl | rfl | rfl
  · exact transform_ended (fun u hu => encodeLoop_endsIn _ hu) h hrun
  · exact transform_ended (fun u hu => decodeLoop_endsIn _ hu) h hrun
  · refine transform_ended (fun u hu => hashLoop_endsIn next _ ?_) h hrun
    exact bufferInv_congr hu rfl rfl rfl rfl

theorem stored_ended {n : Nat} {vs : List Cell} {s u : State} (h : BufferInv s) (hu : bufReserve n s = .go u)
    (hvs : vs.length ≤ n) : Ended (stored vs u) := by
  obtain ⟨hkeeps, hroom⟩ := bufReserve_keeps h hu
  obtain ⟨hsafe, -⟩ := bufReserve_go hu
  obtain ⟨-, hlen, -⟩ := bufReserve_bufferOnly hu
  have hcells := storeCells_keeps vs hkeeps (by rw [hlen]; omega) (by rw [hlen]; omega)
  exact ended_success (bufferInv_congr (t := res0Len (storeCells vs u)) hcells rfl rfl rfl rfl)

/-- Every command but RELEASE ends well. -/
theorem exec_ended {i : Instr} {s t : State} (hi : ∀ u, i ≠ .release u) (h : BufferInv s)
    (hrun : exec i s = .next t) : Ended t := by
  cases commandEnd_of_exec hrun with
  | release u => exact absurd rfl (hi u)
  | transform hi => exact exec_transform_ended hi h hrun
  | badCommand => exact ended_raise .badCommand h
  | lengthOverflow => exact ended_raise .lengthOverflow h
  | value _ v => exact ended_success (bufferInv_congr (t := setRes0 v s) h rfl rfl rfl rfl)
  | token v hu =>
    refine ended_success (bufferInv_congr h ?_ ?_ ?_ ?_)
    all_goals rw [hu]; rfl
  | bufnew => exact ended_success (bufferInv_congr (t := setRes0 0 (bufNew s)) (bufNew_keeps h) rfl rfl rfl rfl)
  | stored _ hu hvs => exact stored_ended h hu hvs

/-! ### The invariant through a step -/

/-- Only what the invariant does not speak of differs: `ARG0`, `TOK`, the schedule, the read port and the count of free
values. -/
def HostSideOnly (s t : State) : Prop :=
  t = { s with arg0 := t.arg0, tok := t.tok, inputs := t.inputs, hostData := t.hostData, fresh := t.fresh }

theorem HostSideOnly.inv {s t : State} (hframe : HostSideOnly s t) (h : Inv s) : Inv t := by
  rw [hframe]
  exact ⟨bufferInv_congr h.buffer rfl rfl rfl rfl, resultInv_congr h.result rfl rfl rfl rfl, h.inp_wf, h.held_busy,
    h.held_not_release⟩

theorem ReadOnly.hostSideOnly {s t : State} (h : ReadOnly s t) : HostSideOnly s t := by
  rw [HostSideOnly, h]

theorem writeRegister_hostSideOnly (n : Nat) (v : Word) (s : State) : HostSideOnly s (writeRegister n v s) := by
  unfold writeRegister
  split_ifs <;> rfl

theorem Ended.inv {t : State} (h : Ended t) (hinp : t.inp.wf) : Inv t where
  buffer := h.buffer
  result := h.result
  inp_wf := hinp
  held_busy := by simp [h.free, h.done]
  held_not_release := by simp [h.free]

/-- The reset values (R41) meet the invariant, whatever `IN` holds. -/
theorem resetEngine_inv {s : State} (h : s.inp.wf) : Inv (resetEngine s) where
  buffer :=
    { out_wf := List.Pairwise.nil
      out_cells := fun i => by simp
      len_le_cap := Nat.zero_le _
      len_le_safe := Nat.zero_le _
      cap_pos := show 1 ≤ 16 by decide
      cap_bound := show 16 ≤ 2 ^ 54 by decide
      grow_cap := show 2 ^ 0 ≤ 16 by decide }
  result := ⟨.inr (.inl rfl), rfl, fun _ => rfl, fun _ => rfl⟩
  inp_wf := h
  held_busy := by simp
  held_not_release := by simp

/-- Settles O51: right after reset nothing of `IN` has been written. -/
theorem invariantAtReset : Obligations.InvariantAtReset := resetEngine_inv (s := State.reset) List.Pairwise.nil

/-- What a move comes to: `step` runs the next one. -/
def outcomeOf : Move → Host.Outcome State Fault Refusal
  | .settle s => .next s
  | .refuse r => .refused r
  | .run i s => exec i s

theorem step_eq_outcomeOf (s : State) : step s = outcomeOf (nextMove s) := by
  unfold step outcomeOf
  cases nextMove s <;> rfl

theorem hostWriteIn_inv (i : Nat) (v : Cell) {s : State} (h : Inv s) : Inv (hostWriteIn i v s) :=
  ⟨bufferInv_congr h.buffer rfl rfl rfl rfl, resultInv_congr h.result rfl rfl rfl rfl, putCell_wf _ _ _ h.inp_wf,
    h.held_busy, h.held_not_release⟩

/-- RELEASE, outside BUSY: nothing is held before or after. -/
theorem releaseReturn_inv {s : State} (h : Inv s) (hs : s.state ≠ .busy) : Inv (releaseReturn s) := by
  have hheld : s.held = none := by
    cases hheld : s.held with
    | none => rfl
    | some w => exact absurd (h.held_busy.mp (by rw [hheld]; rfl)) hs
  have hstate : (releaseReturn s).state ≠ .busy := by
    rw [releaseReturn_state]
    split_ifs
    · decide
    · exact hs
  exact ⟨bufferInv_congr h.buffer rfl rfl rfl rfl, resultInv_congr h.result rfl rfl rfl rfl, h.inp_wf,
    by simp only [releaseReturn_held, hheld, hstate, Option.isSome_none, Bool.false_eq_true], by simp [hheld]⟩

theorem writeCmd_inv {w : Word} {s t : State} (h : Inv s) (hrun : outcomeOf (writeCmd w s) = .next t) : Inv t := by
  rcases writeCmd_cases w s with ⟨_, hs, he⟩ | ⟨hop, _, he⟩ | ⟨_, he⟩
  · rw [he] at hrun
    cases hrun
    exact releaseReturn_inv h hs
  · rw [he] at hrun
    cases hrun
    exact ⟨bufferInv_congr h.buffer rfl rfl rfl rfl, resultInv_congr h.result rfl rfl rfl rfl, h.inp_wf, by simp,
      fun v hv => Option.some.inj hv ▸ hop⟩
  · rw [he] at hrun
    cases hrun
    exact h

/-- On the ENGINE's turn in BUSY the held command ends. -/
theorem engineTurn_ended {s : State} (h : Inv s) (hs : s.state = .busy) :
    ∃ t, outcomeOf (engineTurn s) = .next t ∧ Ended t ∧ SameHost s t := by
  rcases engineTurn_cases s with ⟨w, i, _, hheld, hd, he⟩ | ⟨w, e, _, hheld, hd, he⟩ | ⟨hno, _⟩
  · obtain ⟨t, ht, _⟩ := exec_ends i s
    have hrelease : ∀ u, i ≠ .release u := by
      rintro u rfl
      exact h.held_not_release w hheld (cmd_fields_of_release hd).1
    rw [he]
    exact ⟨t, ht, exec_ended hrelease h.buffer ht, commandsNeverWriteTheHostsSide i s t ht⟩
  · rw [he]
    exact ⟨_, rfl, ended_raise .badCommand h.buffer, rfl, rfl, rfl, rfl⟩
  · have hheld := h.held_busy.mpr hs
    rcases hno with hne | hnone
    · exact absurd hs hne
    · rw [hnone] at hheld
      cases hheld

theorem engineTurn_inv {s t : State} (h : Inv s) (hrun : outcomeOf (engineTurn s) = .next t) : Inv t := by
  by_cases hs : s.state = .busy
  · obtain ⟨u, hu, hended, hinp, _⟩ := engineTurn_ended h hs
    cases hu.symm.trans hrun
    exact hended.inv (hinp ▸ h.inp_wf)
  · rcases engineTurn_cases s with ⟨_, _, hbusy, _⟩ | ⟨_, _, hbusy, _⟩ | ⟨_, he⟩
    · exact absurd hbusy hs
    · exact absurd hbusy hs
    · rw [he] at hrun
      cases hrun
      exact h

theorem hostAction_inv {e : HostEvent} {s t : State} (h : Inv s) (hrun : outcomeOf (hostAction e s) = .next t) :
    Inv t := by
  cases e with
  | readReg n =>
    cases hrun
    exact (hostReadReg_readOnly n s).hostSideOnly.inv h
  | writeReg n v =>
    rw [hostAction] at hrun
    split_ifs at hrun
    · exact writeCmd_inv h hrun
    · cases hrun
      exact (writeRegister_hostSideOnly n v s).inv h
  | readIn i =>
    cases hrun
    exact (hostReadIn_readOnly i s).hostSideOnly.inv h
  | writeIn i v =>
    rw [hostAction] at hrun
    split_ifs at hrun
    · cases hrun
    · cases hrun
      exact hostWriteIn_inv i v h
  | readOut i =>
    cases hrun
    exact (hostReadOut_readOnly i s).hostSideOnly.inv h
  | reset =>
    cases hrun
    exact resetEngine_inv h.inp_wf
  | engine => exact engineTurn_inv h hrun

/-- Settles O52: the ENGINE's turn or a HOST action, with its place in the schedule taken. -/
theorem stepKeepsInvariant : Obligations.StepKeepsInvariant := by
  intro s t h hstep
  rw [step_eq_outcomeOf] at hstep
  cases hin : s.inputs with
  | nil =>
    rw [nextMove_nil hin] at hstep
    exact engineTurn_inv h hstep
  | cons e rest =>
    rw [nextMove_cons hin] at hstep
    exact hostAction_inv (HostSideOnly.inv (t := { s with inputs := rest }) rfl h) hstep

/-! ### Refusals (R236, R283, R284) -/

theorem outcomeOf_refused {m : Move} {r : Refusal} (h : outcomeOf m = .refused r) : m = .refuse r := by
  cases m with
  | settle s => cases h
  | refuse r' =>
    cases h
    rfl
  | run i s =>
    obtain ⟨t, ht, _⟩ := exec_ends i s
    cases ht.symm.trans h

theorem engineTurn_ne_refuse (s : State) (r : Refusal) : engineTurn s ≠ .refuse r := by
  rcases engineTurn_cases s with ⟨_, _, _, _, _, he⟩ | ⟨_, _, _, _, _, he⟩ | ⟨_, he⟩ <;> simp [he]

theorem writeCmd_ne_refuse (w : Word) (s : State) (r : Refusal) : writeCmd w s ≠ .refuse r := by
  rcases writeCmd_cases w s with ⟨_, _, he⟩ | ⟨_, _, he⟩ | ⟨_, he⟩ <;> simp [he]

/-- The one HOST action that is refused. -/
theorem hostAction_refuse {e : HostEvent} {s : State} {r : Refusal} (h : hostAction e s = .refuse r) :
    r = .inputChangedWhileBusy ∧ ∃ i v, e = .writeIn i v ∧ TransformHeld s ∧ i < s.arg0.toNat := by
  cases e with
  | readReg n => cases h
  | readIn i => cases h
  | readOut i => cases h
  | reset => cases h
  | engine => exact absurd h (engineTurn_ne_refuse s r)
  | writeReg n v =>
    rw [hostAction] at h
    split_ifs at h
    exact absurd h (writeCmd_ne_refuse v s r)
  | writeIn i v =>
    rw [hostAction] at h
    split_ifs at h with huse
    cases h
    exact ⟨rfl, i, v, rfl, (inputInUse_iff i s).mp huse⟩

/-- Settles O53: no command is refused, so the refusal is the HOST action's. -/
theorem onlyInputChangesAreRefused : Obligations.OnlyInputChangesAreRefused := by
  intro s r hstep
  rw [step_eq_outcomeOf] at hstep
  have hmove := outcomeOf_refused hstep
  cases hin : s.inputs with
  | nil =>
    rw [nextMove_nil hin] at hmove
    exact absurd hmove (engineTurn_ne_refuse s r)
  | cons e rest =>
    rw [nextMove_cons hin] at hmove
    obtain ⟨hr, i, v, rfl, hheld, hi⟩ := hostAction_refuse hmove
    exact ⟨hr, hheld, i, v, rest, rfl, hi⟩

/-- Settles O54: a refusal would be of an `IN` write in BUSY, which the rules do not allow. -/
theorem keepingTheRulesNeverStops : Obligations.KeepingTheRulesNeverStops := by
  intro s e rest hin hkeeps
  cases hstep : step s with
  | next t => exact ⟨t, rfl⟩
  | fault r => cases r
  | refused r =>
    obtain ⟨-, ⟨hbusy, -⟩, i, v, rest', hin', -⟩ := onlyInputChangesAreRefused s r hstep
    obtain ⟨rfl, rfl⟩ := List.cons.inj (hin.symm.trans hin')
    simp [hostKeepsRules, hbusy] at hkeeps

/-! ### Progress (R236, R238, R294) -/

theorem run_succ {n : Nat} {s t : State} (h : step s = .next t) :
    Host.Core.run Sys2Proof.core (n + 1) s = Host.Core.run Sys2Proof.core n t := by
  have hcore : Sys2Proof.core.step s = .next t := h
  simp only [Host.Core.run, hcore]

/-- A HOST's register access or read leaves a running command running. -/
theorem step_busy_host {s : State} {e : HostEvent} {rest : List HostEvent} (hin : s.inputs = e :: rest)
    (hs : s.state = .busy) (hreset : e ≠ .reset) (hwrite : ∀ i v, e ≠ .writeIn i v) (hengine : e ≠ .engine) :
    ∃ t, step s = .next t ∧ t.inputs = rest ∧ t.state = .busy := by
  have hread : ∀ {t}, ReadOnly { s with inputs := rest } t → t.inputs = rest ∧ t.state = .busy := fun h => by
    rw [h]
    exact ⟨rfl, hs⟩
  cases e with
  | readReg n => exact ⟨_, step_of_hostAction hin rfl, hread (hostReadReg_readOnly n _)⟩
  | writeReg n v => exact ⟨_, step_writeReg_busy hin hs, rfl, hs⟩
  | readIn i => exact ⟨_, step_of_hostAction hin rfl, hread (hostReadIn_readOnly i _)⟩
  | writeIn i v => exact absurd rfl (hwrite i v)
  | readOut i => exact ⟨_, step_of_hostAction hin rfl, hread (hostReadOut_readOnly i _)⟩
  | reset => exact absurd rfl hreset
  | engine => exact absurd rfl hengine

/-- On the ENGINE's turn a running command reaches DONE. -/
theorem step_busy_engine {s : State} (h : Inv s) (hs : s.state = .busy)
    (hturn : s.inputs = [] ∨ ∃ rest, s.inputs = .engine :: rest) : ∃ t, step s = .next t ∧ t.state = .done := by
  rw [step_eq_outcomeOf]
  rcases hturn with hin | ⟨rest, hin⟩
  · rw [nextMove_nil hin]
    obtain ⟨t, ht, hended, -⟩ := engineTurn_ended h hs
    exact ⟨t, ht, hended.done⟩
  · rw [nextMove_cons hin]
    obtain ⟨t, ht, hended, -⟩ :=
      engineTurn_ended (HostSideOnly.inv (t := { s with inputs := rest }) rfl h) hs
    exact ⟨t, ht, hended.done⟩

/-- Settles O55, by induction on the schedule: the command runs at the ENGINE's first turn, at the latest when the
schedule is empty. -/
theorem everyAcceptedCommandCompletes : Obligations.EveryAcceptedCommandCompletes := by
  intro s h hs hevents
  induction hin : s.inputs generalizing s with
  | nil =>
    obtain ⟨t, ht, hdone⟩ := step_busy_engine h hs (.inl hin)
    exact ⟨1, t, Nat.le_refl 1, run_succ ht, hdone⟩
  | cons e rest ih =>
    rw [hin] at hevents
    obtain ⟨hreset, hwrite⟩ := hevents e List.mem_cons_self
    by_cases hengine : e = .engine
    · subst hengine
      obtain ⟨t, ht, hdone⟩ := step_busy_engine h hs (.inr ⟨rest, hin⟩)
      exact ⟨1, t, Nat.succ_le_succ (Nat.zero_le _), run_succ ht, hdone⟩
    · obtain ⟨u, hu, huin, hus⟩ := step_busy_host hin hs hreset hwrite hengine
      obtain ⟨n, t, hn, ht, hdone⟩ := ih u (stepKeepsInvariant s u h hu) hus
        (fun e' he' => hevents e' (List.mem_cons_of_mem e (huin ▸ he'))) huin
      exact ⟨n + 1, t, Nat.succ_le_succ hn, (run_succ hu).trans ht, hdone⟩

end Sys2Proof.Proofs
end
